-- ==== Sys2Proof/Word.lean ====
section
/-! DEFINITION. The word types of the hardware (00_scope.md R6: a byte is 8 bits, a half 16, a word 32). -/

namespace Sys2Proof

/-- A byte: 8 bits, unsigned. -/
abbrev Byte := BitVec 8

/-- A half: 16 bits, unsigned. -/
abbrev Half := BitVec 16

/-- A word: 32 bits, unsigned. -/
abbrev Word := BitVec 32

end Sys2Proof
end

