-- ==== Sys2Proof/Machine/Types.lean ====
section
/-! DEFINITION. The plain data types of the machine: framer and control states, the packet register, the
flash-controller interface, the observable events, the agents' turns, the error classes. -/

namespace Sys2Proof

/-- `fst`, the receive framer state (10_state.md R10). -/
inductive Fst where
  | waitSync1
  | waitSync2
  | readType
  | readLength
  | readPayload
  | readChecksumLow
  | readChecksumHigh
deriving DecidableEq, Repr

/-- `top`, the control state of CORE (10_state.md R11). -/
inductive Top where
  | boot
  | app
  | poll
  | dispatch
  | flash
  | send
  | fault
deriving DecidableEq, Repr

/-- `wf_phase`, the position inside a WRITEFLASH (10_state.md R20 names the last eleven).
`head` is the model's own: the top of the page loop of 42_commands.md R119.
DESIGN CHOICE (safe, log 8): it issues no controller operation. -/
inductive WfPhase where
  | head
  | eWait1
  | eKey1
  | eKey2
  | eCfg
  | eWait2
  | pWait1
  | pKey1
  | pKey2
  | pCfg
  | pWord
  | pWaitW
deriving DecidableEq, Repr

/-- `pkt`, the packet register (10_state.md R12). -/
@[ext]
structure Packet where
  type : Byte
  length : Byte
  payload : Vector Byte 32
  cksum : Half
deriving DecidableEq, Repr

/-- A configuration record of the flash controller, field by field (43_flash_sequencer.md R145).
Where the bits of the real register lie is the open parameter `Config.fcLayout`. -/
structure FcConfig where
  /-- program width in bits -/
  width : Nat
  /-- target sector index -/
  sector : BitVec 4
  /-- erase-mode bit -/
  eraseMode : Bool
  /-- start bit -/
  start : Bool
  /-- program-enable bit -/
  programEnable : Bool
deriving DecidableEq, Repr

/-- One operation on the flash-controller interface (43_flash_sequencer.md R140).
`FC.unlock()` is its two register writes, `key1` then `key2`. -/
inductive FcOp where
  | isBusy (answer : Bool)
  | key1
  | key2
  | configure (c : FcConfig)
  | writeWord (addr value : Word)
deriving DecidableEq, Repr

/-- A diagnostic event, without payload (60_exceptions.md R168). -/
inductive Diag where
  | checksumFail
  | boundsViolation
  | stageIndexFault
deriving DecidableEq, Repr

/-- What an observer outside the block sees (10_state.md R26 (1) to (3)). -/
inductive Event where
  | sinkPut (c : Byte)
  | fc (op : FcOp)
  | diag (d : Diag)
deriving DecidableEq, Repr

/-- One turn of one agent (00_scope.md R5).
DESIGN CHOICE (safe, log 1): the environment's schedule is a list of these in State. -/
inductive Turn where
  /-- CORE takes its step (42_commands.md R123). -/
  | core
  /-- LINE offers the byte `c` to the receive queue (40_framing_rx.md R80). -/
  | line (c : Byte)
  /-- LINE delivers a whole frame and CORE polls once after each byte (log 14). -/
  | frame (type : Byte) (payload : List Byte)
  /-- FC changes what the busy-status read answers (43_flash_sequencer.md R141). -/
  | fc (busy : Bool)
  /-- SINK becomes ready, or not ready, to accept a byte (41_framing_tx.md R102). -/
  | sink (ready : Bool)
  /-- The level of the boot-mode pin changes (70_reset_and_hazards.md R181). -/
  | pin (level : Bool)
  /-- The hardware reset (70_reset_and_hazards.md R180). -/
  | reset
deriving DecidableEq, Repr

/-- The error classes of 60_exceptions.md R160. -/
inductive ErrorClass where
  | badSync
  | checksumMismatch
  | overLength
  | ignored
  | boundsViolation
  | queueOverflow
  | hang
  | stageIndexFault
deriving DecidableEq, Repr

end Sys2Proof
end

