-- ==== Sys2Proof/Config.lean ====
section
/-! DEFINITION. The OPEN parameters of 00_scope.md R4 and the free value of 43_flash_sequencer.md R151 (c):
constants without a body, so that no proof can rest on a value of theirs. -/

namespace Sys2Proof

/-- `FC_KEY1`, the first unlock value (OPEN, decision D13; log 16). -/
opaque Config.fcKey1 : Word

/-- `FC_KEY2`, the second unlock value (OPEN, decision D13; log 16). -/
opaque Config.fcKey2 : Word

/-- `FC_LAYOUT`: the bit pattern of a configuration record (OPEN, decision D13; log 16). -/
opaque Config.fcLayout : FcConfig → Word

/-- `FC_LAYOUT`: the address of the controller's unlock register (OPEN, decision D13; log 16). -/
opaque Config.fcKeyRegister : Word

/-- `FC_LAYOUT`: the address of the configuration register (OPEN, decision D13; log 16). -/
opaque Config.fcConfigRegister : Word

/-- `FC_LAYOUT`: the address of the busy-status register (OPEN, decision D13; log 16). -/
opaque Config.fcStatusRegister : Word

/-- `BOOT_PIN_STAY_LEVEL`: the pin level that means "stay in bootloader" (OPEN, decision D18; log 17). -/
opaque Config.bootPinStayLevel : Bool

/-- The word that the n-th write with an unspecified result leaves in the flash array
(43_flash_sequencer.md R151 (c), 93_implementation_defined.md U1: a free draw; log 7). -/
opaque Config.freeWord : Nat → Word

end Sys2Proof
end

