-- ==== Sys2Proof/Machine/Memory.lean ====
section
/-! DEFINITION. Byte memories as lists of (address, byte) cells in one canonical form, over a byte `d` that
an unlisted address reads as: 0x00 for STAGE (10_state.md R18), 0xFF for FLASH (log 5). -/

namespace Sys2Proof

/-- A byte memory: its cells that differ from what an unlisted address reads as. -/
abbrev Memory := List Host.Cell

/-- What address `a` reads as. -/
def Memory.read (d : Byte) : Memory → Nat → Byte
  | [], _ => d
  | (k, x) :: m, a => if k = a then x else Memory.read d m a

/-- The cell (a, v) put before the first cell of a greater address. -/
def Memory.insert (a : Nat) (v : Byte) : Memory → Memory
  | [] => [(a, v)]
  | (k, x) :: m => if a < k then (a, v) :: (k, x) :: m else (k, x) :: Memory.insert a v m

/-- Writes one byte; writing what an unlisted address reads as removes the cell. -/
def Memory.write (d : Byte) (m : Memory) (a : Nat) (v : Byte) : Memory :=
  let rest := m.filter (fun c => c.1 != a)
  if v = d then rest else Memory.insert a v rest

/-- Writes consecutive bytes from address `a` up. -/
def Memory.writeBytes (d : Byte) : Memory → Nat → List Byte → Memory
  | m, _, [] => m
  | m, a, b :: bs => Memory.writeBytes d (Memory.write d m a b) (a + 1) bs

/-- Every byte from `lo` up to, not including, `hi` becomes what an unlisted address reads as. -/
def Memory.clear (m : Memory) (lo hi : Nat) : Memory :=
  m.filter (fun c => !(decide (lo ≤ c.1) && decide (c.1 < hi)))

/-- The little-endian word at byte address `a` (20_memory.md R44 (3), (4)). -/
def Memory.readWord (d : Byte) (m : Memory) (a : Nat) : Word :=
  le32 (m.read d a) (m.read d (a + 1)) (m.read d (a + 2)) (m.read d (a + 3))

/-- Writes a word, little-endian, at byte address `a` (20_memory.md R44 (3)). -/
def Memory.writeWord (d : Byte) (m : Memory) (a : Nat) (v : Word) : Memory :=
  Memory.writeBytes d m a (wordBytes v)

/-- The canonical form: addresses strictly rising, no cell equal to what an unlisted address reads as. -/
def Memory.wf (d : Byte) : Memory → Bool
  | [] => true
  | (k, x) :: m => (x != d) && m.all (fun c => decide (k < c.1)) && Memory.wf d m

/-- What an unlisted byte of STAGE reads as (10_state.md R18, "zero-initialized at startup"). -/
def stageDefault : Byte := 0x00

/-- What an unlisted byte of FLASH reads as: erased.
DESIGN CHOICE (unsafe, log 5): the spec gives the array no content before the first write. -/
def flashDefault : Byte := 0xFF

end Sys2Proof
end

