-- ==== Sys2Proof/Machine/Constants.lean ====
section
/-! DEFINITION. The constants of 00_scope.md R4 and the sector map of 20_memory.md R46. -/

namespace Sys2Proof

/-- `SYNC1`. -/
abbrev sync1 : Byte := 0xBC

/-- `SYNC2`. -/
abbrev sync2 : Byte := 0xCF

/-- `MAX_PAYLOAD`, in bytes. -/
abbrev maxPayload : Nat := 32

/-- `RXQ_CAP`, in bytes. -/
abbrev rxqCap : Nat := 64

/-- `N_BUF_PAGES`. -/
abbrev nBufPages : Nat := 10

/-- `PAGE_SIZE`, in bytes. -/
abbrev pageSize : Nat := 1024

/-- `N_FLASH_PAGES`. -/
abbrev nFlashPages : Nat := 1024

/-- `FLASH_START_PAGE`. -/
abbrev flashStartPage : Nat := 16

/-- `VERSION`. -/
abbrev version : Byte := 0x10

/-- `MARKER`. -/
abbrev marker : Byte := 0xFF

/-- `MARKER_POS`, the payload index of the marker. -/
abbrev markerPos : Nat := 1

/-- `MIN_CMD_LEN`. -/
abbrev minCmdLen : Nat := 3

/-- `CMD_BASE`, the payload index of the opcode (decision D1). -/
abbrev cmdBase : Nat := 2

/-- `LB_HDR`: a LOADBUFFER carries `length - 7` data bytes. -/
abbrev lbHeader : Nat := 7

/-- `FLASH_BASE` (decision D9). -/
abbrev flashBase : Nat := 0x08000000

/-- `APP_BASE` (decision D10). -/
abbrev appBase : Nat := 0x08004000

/-- `ERASED_WORD`. -/
abbrev erasedWord : Word := 0xFFFFFFFF

/-- `STATUS_DONE` (decision D12; from general knowledge, log 18). -/
abbrev statusDone : Byte := 0x01

/-- `STATUS_ERROR` (decision D12; from general knowledge, log 18). -/
abbrev statusError : Byte := 0x00

/-- `INFO_REPLY_LEN`. -/
abbrev infoReplyLen : Byte := 24

/-- `MAP_REPLY_LEN`. -/
abbrev mapReplyLen : Byte := 9

/-- `STATUS_REPLY_LEN`. -/
abbrev statusReplyLen : Byte := 5

/-- `MAPPING_TABLE`: (count, KiB) pairs of the sector geometry. -/
def mappingTable : List Byte := [4, 16, 1, 64, 7, 128]

/-- `SECTOR_MAP`: the start address of each erase sector (20_memory.md R46). -/
def sectorMap : List Word :=
  [0x08000000, 0x08004000, 0x08008000, 0x0800C000, 0x08010000, 0x08020000,
   0x08040000, 0x08060000, 0x08080000, 0x080A0000, 0x080C0000, 0x080E0000]

/-- The end of sector 11, one past the device; not in the map (20_memory.md R46). -/
abbrev flashEnd : Nat := 0x08100000

/-- `ERASE_CFG(s)` (43_flash_sequencer.md R145). -/
def eraseCfg (s : BitVec 4) : FcConfig :=
  { width := 32, sector := s, eraseMode := true, start := true, programEnable := false }

/-- `PROGRAM_CFG` (43_flash_sequencer.md R145). -/
def programCfg : FcConfig :=
  { width := 32, sector := 0, eraseMode := false, start := false, programEnable := true }

end Sys2Proof
end

