-- ==== Sys2Proof/Machine/Flags.lean ====
section
/-! DEFINITION. The flag and condition values of 10_state.md section 3: the two checksum accumulators, the
checksum, and the comparison `ck_ok`. `reply_required` is written by `State.finishCommand` (Machine/Ops.lean). -/

namespace Sys2Proof

/-- The checksum accumulators `a` and `b` (40_framing_rx.md R91; registers ck_a, ck_b of 10_state.md R14). -/
structure CkAcc where
  a : Byte
  b : Byte
deriving DecidableEq, Repr

/-- One accumulator pair: `a += x`, then `b += a` with the updated `a`, both mod 256 (40_framing_rx.md R91). -/
def CkAcc.add (k : CkAcc) (x : Byte) : CkAcc :=
  { a := k.a + x, b := k.b + (k.a + x) }

/-- The accumulators after type byte `t`, length byte `l` and payload `p` (40_framing_rx.md R91). -/
def ckAcc (t l : Byte) (p : List Byte) : CkAcc :=
  p.foldl CkAcc.add (CkAcc.add { a := t, b := t } l)

/-- `cksum16(t, L, p)`: `a + 256*b` (40_framing_rx.md R91). -/
def cksum16 (t l : Byte) (p : List Byte) : Half :=
  le16 (ckAcc t l p).a (ckAcc t l p).b

end Sys2Proof
end

