-- ==== Sys2Proof/Machine/Operands.lean ====
section
/-! DEFINITION. The packet register as operand storage: single bytes, command fields, received bytes, and the
packet that a list of payload bytes makes (30_encoding.md R64, R65, R67). -/

namespace Sys2Proof

/-- `pkt.payload[i]`. The register has 32 bytes; every operand index of the spec is below 32 (20_memory.md R41). -/
def Packet.byte (p : Packet) (i : Nat) : Byte := (p.payload[i]?).getD 0

/-- `pkt.payload[i] <- v` (nothing where the register has no byte `i`; 20_memory.md R41). -/
def Packet.put (p : Packet) (i : Nat) (v : Byte) : Packet :=
  { p with payload := p.payload.setIfInBounds i v }

/-- `pkt.payload[i], pkt.payload[i+1], …` take the listed bytes in order. -/
def Packet.putAll (p : Packet) : Nat → List Byte → Packet
  | _, [] => p
  | i, b :: bs => Packet.putAll (p.put i b) (i + 1) bs

/-- `cmd[k]`, that is `pkt.payload[CMD_BASE + k]` (00_scope.md R6). -/
def Packet.cmd (p : Packet) (k : Nat) : Byte := p.byte (cmdBase + k)

/-- `cmd[k], cmd[k+1], … <- bytes`. -/
def Packet.putCmd (p : Packet) (k : Nat) (bytes : List Byte) : Packet := p.putAll (cmdBase + k) bytes

/-- The 16-bit field at offset `k`: `le16(cmd[k], cmd[k+1])` (30_encoding.md R67). -/
def Packet.cmd16 (p : Packet) (k : Nat) : Half := le16 (p.cmd k) (p.cmd (k + 1))

/-- `pkt.payload[0 .. pkt.length-1]`, the valid payload bytes (10_state.md R12). -/
def Packet.valid (p : Packet) : List Byte := p.payload.toList.take p.length.toNat

/-- A payload register that holds the listed bytes (at most 32) and 0x00 above them. -/
def paddedPayload (bytes : List Byte) : Vector Byte 32 :=
  ⟨((bytes ++ List.replicate 32 0).take 32).toArray, by simp⟩

/-- The packet a well-formed frame of this type and payload yields: fresh zeros above the received bytes and
the matching checksum (40_framing_rx.md R85, R90). -/
def Packet.ofFrame (t : Byte) (payload : List Byte) : Packet :=
  { type := t
    length := BitVec.ofNat 8 payload.length
    payload := paddedPayload payload
    cksum := cksum16 t (BitVec.ofNat 8 payload.length) payload }

end Sys2Proof
end

