-- ==== Sys2Proof/Machine/State.lean ====
section
/-! DEFINITION. The state of the block and of its environment as plain data, the reasons a step can stop, and
the machine right after reset. -/

namespace Sys2Proof.Machine

/-- A reason the machine stops. Neither is raised in a state that a run from reset reaches (log 15). -/
inductive Fault where
  /-- Raised by STEP.ReadPayload, STEP.ReadChecksumHigh and SEND when they would use a payload index of 32 or
  more, or a byte outside the outbound frame (20_memory.md R41 shows that no run does so). Safe. -/
  | payloadIndex
  /-- Raised by LOADBUFFER and program for an access outside STAGE (20_memory.md R42: an access is admitted only
  for page <= 9 and address <= 1023). Safe. -/
  | stageIndex
deriving DecidableEq, Repr

/-- A reason there is no meaning for an instruction. -/
inductive Refusal where
  /-- Raised by `exec` for an instruction that has no meaning yet. Safe. -/
  | notModelled (mnemonic : String)
  /-- Raised by a meaning applied in a `top`, `fst` or `wf_phase` in which the spec does not let CORE take it
  (40_framing_rx.md R81, R82; 42_commands.md R123; log 12). `step` takes an instruction only where it is enabled. Safe. -/
  | notEnabled
deriving DecidableEq, Repr

/-- The environment: what the block reads or drives through its interfaces, the observer's record and the
agents' coming turns (10_state.md R25, R26; logs 1, 2, 4). The hardware reset keeps all of it. -/
@[ext]
structure Env where
  /-- the level of the boot-mode pin (70_reset_and_hazards.md R181) -/
  bootPin : Bool
  /-- what the busy-status read answers (43_flash_sequencer.md R141) -/
  fcBusy : Bool
  /-- the configuration record written last (43_flash_sequencer.md R145, R151) -/
  fcConfig : Option FcConfig
  /-- the flash array (43_flash_sequencer.md R151) -/
  flash : Memory
  /-- MODEL'S OWN: how many free values have been drawn (log 7) -/
  freeCount : Nat
  /-- whether the sink accepts a byte offered now (41_framing_tx.md R102) -/
  sinkReady : Bool
  /-- MODEL'S OWN: everything observable so far, the oldest first (10_state.md R26; log 2) -/
  trace : List Event
  /-- MODEL'S OWN: the coming turns of the agents (00_scope.md R5; log 1) -/
  turns : List Turn
deriving DecidableEq, Repr

/-- The state of the machine; INVENTORY.md lists every field with its rule, width and reset value. -/
@[ext]
structure State where
  /-- the receive framer state (10_state.md R10) -/
  fst : Fst
  /-- the control state of CORE (10_state.md R11) -/
  top : Top
  /-- the packet register (10_state.md R12) -/
  pkt : Packet
  /-- the receive byte counter (10_state.md R13) -/
  rxCount : BitVec 6
  /-- checksum accumulator a (10_state.md R14) -/
  ckA : Byte
  /-- checksum accumulator b (10_state.md R14) -/
  ckB : Byte
  /-- the result of the last checksum comparison (10_state.md R15; log 22) -/
  ckOk : Bool
  /-- the dispatcher's return value (10_state.md R16) -/
  replyRequired : Bool
  /-- the receive queue, the oldest byte first (10_state.md R17) -/
  rxq : List Byte
  /-- the staging store; byte (page, a) at address 1024*page + a (10_state.md R18) -/
  stage : Memory
  /-- WRITEFLASH: flash-page index (10_state.md R20) -/
  wfFpage : Half
  /-- WRITEFLASH: page count (10_state.md R20) -/
  wfN : Half
  /-- WRITEFLASH: buffer-page index, read and never used (10_state.md R20) -/
  wfBpage : Half
  /-- WRITEFLASH: loop index (10_state.md R20) -/
  wfI : BitVec 4
  /-- WRITEFLASH: the current page's flash address (10_state.md R20) -/
  wfAddr : Word
  /-- WRITEFLASH: position in the operation sequence (10_state.md R20) -/
  wfPhase : WfPhase
  /-- WRITEFLASH: word index inside the page (10_state.md R20) -/
  wfW : BitVec 8
  /-- MODEL'S OWN: the sector `s` found for the current page (42_commands.md R119; log 9) -/
  wfS : BitVec 4
  /-- SEND: index of the next byte of the outbound frame (10_state.md R21) -/
  txIdx : BitVec 6
  /-- latched at the mode decision: "stay in bootloader" (10_state.md R22; log 24) -/
  stayReq : Bool
  /-- latched at the mode decision: the word at APP_BASE (10_state.md R22; log 24) -/
  appWord : Word
  /-- the environment -/
  env : Env
deriving DecidableEq, Repr

/-- The environment that `State.reset` stands in. DESIGN CHOICE (unsafe, log 4): the spec gives the
environment no initial state. -/
def Env.initial : Env :=
  { bootPin := false, fcBusy := false, fcConfig := none, flash := [], freeCount := 0, sinkReady := true,
    trace := [], turns := [] }

/-- The machine right after reset (10_state.md R27). The fields from `ckA` to `replyRequired` and from `wfFpage`
to `appWord` have no reset value in the spec: DESIGN CHOICE (unsafe, log 3). -/
def State.reset : State :=
  { fst := .waitSync1
    top := .boot
    pkt := { type := 0, length := 0, payload := Vector.replicate 32 0, cksum := 0 }
    rxCount := 0
    ckA := 0
    ckB := 0
    ckOk := false
    replyRequired := false
    rxq := []
    stage := []
    wfFpage := 0
    wfN := 0
    wfBpage := 0
    wfI := 0
    wfAddr := 0
    wfPhase := .head
    wfW := 0
    wfS := 0
    txIdx := 0
    stayReq := false
    appWord := 0
    env := Env.initial }

end Sys2Proof.Machine
end

