-- ==== Sys2Proof/Machine/Ops.lean ====
section
/-! DEFINITION. The named operations over the state that the meanings share: single-field updates, outputs, the
receive queue, the staging store, the flash-controller interface, the error classes (what "taking an exception"
is on this hardware, 00_scope.md R7), the return of the dispatcher, and the hardware reset. -/

namespace Sys2Proof.Machine

/-- What a meaning answers. -/
abbrev Result := Host.Outcome State Fault Refusal

/-! Single-field updates. -/

/-- `fst <- f` (00_scope.md R6). -/
def State.setFst (s : State) (f : Fst) : State := { s with fst := f }

/-- `top <- t` (00_scope.md R6). -/
def State.setTop (s : State) (t : Top) : State := { s with top := t }

/-- `pkt <- p`. -/
def State.setPkt (s : State) (p : Packet) : State := { s with pkt := p }

/-- `rx_count <- n`. -/
def State.setRxCount (s : State) (n : BitVec 6) : State := { s with rxCount := n }

/-- `RXQ <- q`. -/
def State.setRxq (s : State) (q : List Byte) : State := { s with rxq := q }

/-- `STAGE <- m`. -/
def State.setStage (s : State) (m : Memory) : State := { s with stage := m }

/-- `wf_phase <- p`. -/
def State.setPhase (s : State) (p : WfPhase) : State := { s with wfPhase := p }

/-- `reply_required <- b`. -/
def State.setReply (s : State) (b : Bool) : State := { s with replyRequired := b }

/-- The environment becomes `e`. -/
def State.setEnv (s : State) (e : Env) : State := { s with env := e }

/-- The accumulators after an evaluation of `cksum16` over the packet register (10_state.md R14: once per received
frame, once per sent frame). -/
def State.setCkAcc (s : State) (k : CkAcc) : State := { s with ckA := k.a, ckB := k.b }

/-! Outputs. -/

/-- One observable event is recorded (10_state.md R26; log 2). -/
def State.emit (s : State) (e : Event) : State := s.setEnv { s.env with trace := s.env.trace ++ [e] }

/-- `diag(d)`: never blocks, changes no state of the block (60_exceptions.md R168). -/
def State.diag (s : State) (d : Diag) : State := s.emit (.diag d)

/-! The staging store (20_memory.md R42). -/

/-- Byte (page, a) of the staging store; none outside it. -/
def State.stageByte (s : State) (page a : Nat) : Option Byte :=
  if page < nBufPages ∧ a < pageSize then some (s.stage.read stageDefault (pageSize * page + a)) else none

/-- Word `w` of a staging page, little-endian (20_memory.md R44 (3)); none outside the store. -/
def State.stageWord (s : State) (page w : Nat) : Option Word :=
  if page < nBufPages ∧ 4 * w + 3 < pageSize then
    some (s.stage.readWord stageDefault (pageSize * page + 4 * w))
  else none

/-- The staging store after `bytes` are written from (page, a) up, in one step; none where a byte would lie
outside the page (20_memory.md R42, R48). -/
def State.stageWrite (s : State) (page a : Nat) (bytes : List Byte) : Option State :=
  if page < nBufPages ∧ a + bytes.length ≤ pageSize then
    some (s.setStage (s.stage.writeBytes stageDefault (pageSize * page + a) bytes))
  else none

/-! The flash-controller interface and the reference flash array (43_flash_sequencer.md R140, R151). -/

/-- `sector_lookup(addr)`: the index of the sector that starts exactly at `addr` (43_flash_sequencer.md R142). -/
def sectorIndex (addr : Word) : Option Nat := sectorMap.findIdx? (fun a => a == addr)

/-- The flash address of flash page `page` (20_memory.md R47, R50 (4): formed without a 16-bit wrap). -/
def flashPageAddr (page : Nat) : Word := BitVec.ofNat 32 (flashBase + pageSize * page)

/-- Where sector `s` starts (20_memory.md R46). -/
def sectorStart (s : Nat) : Nat := (sectorMap.getD s 0).toNat

/-- Where sector `s` ends: the next entry of the map, or the end of the device (43_flash_sequencer.md R151 (a)). -/
def sectorEnd (s : Nat) : Nat := if s + 1 < sectorMap.length then sectorStart (s + 1) else flashEnd

/-- A word address inside the device (43_flash_sequencer.md R151 (b), (c)). -/
def inDevice (a : Nat) : Bool := decide (flashBase ≤ a) && decide (a + 3 < flashEnd)

/-- The reference array's answer to a configuration write: `ERASE_CFG(s)` erases sector `s`
(43_flash_sequencer.md R151 (a); DESIGN CHOICE log 6). No lock state is kept: the answer does not depend on the key writes
(93_implementation_defined.md U6; DESIGN CHOICE, unsafe, log 31). -/
def Env.applyConfig (e : Env) (c : FcConfig) : Env :=
  { e with
    fcConfig := some c
    flash :=
      if c = eraseCfg c.sector ∧ c.sector.toNat < sectorMap.length then
        e.flash.clear (sectorStart c.sector.toNat) (sectorEnd c.sector.toNat)
      else e.flash }

/-- Whether R151 (b) gives the word write at `a` its result. -/
def Env.programs (e : Env) (a : Nat) : Bool :=
  decide (e.fcConfig = some programCfg) && inDevice a && (e.flash.readWord flashDefault a == erasedWord)

/-- The reference array's answer to a word write: the word itself where R151 (b) says so, else a free value
(43_flash_sequencer.md R151 (c); log 7). No lock state is kept (log 31). -/
def Env.applyWrite (e : Env) (a : Nat) (v : Word) : Env :=
  if e.programs a then { e with flash := e.flash.writeWord flashDefault a v }
  else
    { e with
      flash := e.flash.writeWord flashDefault a (Config.freeWord e.freeCount)
      freeCount := e.freeCount + 1 }

/-- One poll of a `wait until not FC.is_busy()`: on the answer "not busy" the sequencer goes on to `next`, on "busy"
it stays (43_flash_sequencer.md R141, R147). -/
def State.pollBusy (s : State) (next : State → State) : State :=
  let s' := s.emit (.fc (.isBusy s.env.fcBusy))
  if s.env.fcBusy then s' else next s'

/-- `FC.configure(c)` (43_flash_sequencer.md R140). -/
def State.configure (s : State) (c : FcConfig) : State :=
  let s' := s.emit (.fc (.configure c))
  s'.setEnv (s'.env.applyConfig c)

/-- `FC.write_word(addr, v)` (43_flash_sequencer.md R140). -/
def State.writeWord (s : State) (addr v : Word) : State :=
  let s' := s.emit (.fc (.writeWord addr v))
  s'.setEnv (s'.env.applyWrite addr.toNat v)

/-! The error classes. -/

/-- Taking an error class: the local recovery action that each class has in place of a trap entry, from the
"State changed" lines of 60_exceptions.md R161 to R167 and 42_commands.md R126. Nothing is saved and no handler is
entered (60_exceptions.md R172); there is no return (R173). -/
def State.raise (s : State) : ErrorClass → State
  | .badSync => if s.fst = .waitSync1 then s.setRxCount 0 else s.setFst .waitSync1
  | .checksumMismatch => (s.setFst .waitSync1).diag .checksumFail
  | .overLength => s.setFst .waitSync1
  | .ignored => (s.setReply false).setTop .poll
  | .boundsViolation => ((s.setReply false).setTop .poll).diag .boundsViolation
  | .queueOverflow => s
  | .hang => s
  | .stageIndexFault => (s.diag .stageIndexFault).setTop .fault

/-! Return of the dispatcher. -/

/-- `reply_required <- reply`, then: a reply is sent from its first byte, or CORE polls again (42_commands.md R124). -/
def State.finishCommand (s : State) (reply : Bool) : State :=
  if reply then { s with replyRequired := true, top := .send, txIdx := 0 }
  else { s with replyRequired := false, top := .poll }

/-! Reset. -/

/-- The hardware reset: every piece of the block's state takes its reset value; the flash array and the rest of the
environment stay (70_reset_and_hazards.md R180). -/
def State.hardwareReset (s : State) : State := State.reset.setEnv s.env

/-! Joining operations that may stop. -/

/-- First `r`, then, unless it stopped, `k`. -/
def andThen (r : Result) (k : State → Result) : Result :=
  match r with
  | .next s => k s
  | .fault f => .fault f
  | .refused f => .refused f

/-- `k` where `enabled` holds; elsewhere CORE does not take the operation (log 12). -/
def whenEnabled (enabled : Bool) (k : Result) : Result := if enabled then k else .refused .notEnabled

end Sys2Proof.Machine
end

