-- ==== Sys2Proof/Machine/Boot.lean ====
section
/-! DEFINITION. The mode decision (70_reset_and_hazards.md R181). -/

namespace Sys2Proof.Machine

/-- BOOT: the application gets control where the pin does not ask to stay and the first word of its region is not
the erased sentinel; else the protocol loop starts (70_reset_and_hazards.md R181, R182). -/
def execBoot (s : State) : Result :=
  let stay := s.env.bootPin == Config.bootPinStayLevel
  let word := s.env.flash.readWord flashDefault appBase
  whenEnabled (decide (s.top = .boot))
    (.next { s with stayReq := stay, appWord := word, top := if word != erasedWord && !stay then .app else .poll })

end Sys2Proof.Machine
end

