-- ==== Sys2Proof/Syntax.lean ====
section
/-! DEFINITION. The instructions: one constructor per row of spec/opcode_table.json. A command carries the
operands its request has and the request's other bytes, so that a packet and its instruction determine each other. -/

namespace Sys2Proof

/-- One instruction of CF2-BLFRAMER (00_scope.md R1, R7; 30_encoding.md R60, R65, R70).
`lead` is payload[0]; `extra` are the request's bytes after those that the command names;
`len` is the request's length, where fields beyond it read as zero (30_encoding.md R65). -/
inductive Instr where
  /-- FRAME (R60): a whole frame; its length byte and its checksum are computed. -/
  | frame (type : Byte) (payload : List Byte)
  /-- GETINFO (R113). -/
  | getinfo (lead : Byte) (extra : List Byte)
  /-- GETMAPPING (R114). -/
  | getmapping (lead : Byte) (extra : List Byte)
  /-- LOADBUFFER (R115). -/
  | loadbuffer (lead : Byte) (len : Nat) (page address : Half) (data : List Byte)
  /-- READBUFFER (R117). -/
  | readbuffer (lead : Byte) (extra : List Byte)
  /-- WRITEFLASH (R118). -/
  | writeflash (lead : Byte) (len : Nat) (bufferPage flashPage nPages : Half) (extra : List Byte)
  /-- FLASHSTATUS (R120). -/
  | flashstatus (lead : Byte) (extra : List Byte)
  /-- READFLASH (R121). -/
  | readflash (lead : Byte) (extra : List Byte)
  /-- DEFAULT (R122): any opcode but the seven named ones. -/
  | defaultArm (lead opcode : Byte) (extra : List Byte)
  /-- IGNORED (R110): a packet that fails admission, with all its payload bytes. -/
  | ignored (payload : List Byte)
  /-- STEP.WaitSync1 (R83); `c` is the popped byte, as in the six other byte-steps. -/
  | stepWaitSync1 (c : Byte)
  /-- STEP.WaitSync2 (R84). -/
  | stepWaitSync2 (c : Byte)
  /-- STEP.ReadType (R85). -/
  | stepReadType (c : Byte)
  /-- STEP.ReadLength (R86). -/
  | stepReadLength (c : Byte)
  /-- STEP.ReadPayload (R87). -/
  | stepReadPayload (c : Byte)
  /-- STEP.ReadChecksumLow (R88). -/
  | stepReadChecksumLow (c : Byte)
  /-- STEP.ReadChecksumHigh (R89). -/
  | stepReadChecksumHigh (c : Byte)
  /-- RXQ.push (R80), the step of LINE. -/
  | rxqPush (c : Byte)
  /-- RXQ.pop (R81), CORE's poll. -/
  | rxqPop
  /-- SEND (R101): its next `SINK.put`. -/
  | send
  /-- sector_lookup (R142), with the choice it makes for the page (R119). -/
  | sectorLookup (addr : Word)
  /-- erase (R143): its next controller operation. -/
  | erase (sector : BitVec 4)
  /-- program (R144): its next controller operation; the data are STAGE page `page`. -/
  | program (addr : Word) (page : BitVec 4)
  /-- BOOT (R181), the mode decision. -/
  | boot
deriving DecidableEq, Repr

end Sys2Proof
end

