-- ==== Sys2Proof/WellFormed.lean ====
section
/-! DEFINITION. When an instruction is one that the encoding can express. -/

namespace Sys2Proof

/-- The opcodes that select a named command (30_encoding.md R68). -/
def namedOpcodes : List Byte := [0x10, 0x12, 0x14, 0x15, 0x18, 0x19, 0x1C]

/-- A command packet's bytes after the opcode fit a payload of 32 bytes (30_encoding.md R61). -/
def extraFits (extra : List Byte) : Bool := decide (minCmdLen + extra.length ≤ maxPayload)

/-- A command's length is 3..32 (30_encoding.md R64). -/
def lenFits (len : Nat) : Bool := decide (minCmdLen ≤ len) && decide (len ≤ maxPayload)

/-- A 16-bit field at payload index `k` has no bit set in a byte the request does not carry
(30_encoding.md R65: a field beyond the length reads as zero). -/
def fieldFits (len k : Nat) (v : Half) : Bool := decide (v.toNat < 256 ^ min 2 (len - k))

/-- An instruction that some bytes encode, or, for an internal operation, one that the machine can call. -/
def Instr.wf : Instr → Bool
  | .frame _ p => decide (p.length ≤ maxPayload)
  | .getinfo _ e => extraFits e
  | .getmapping _ e => extraFits e
  | .loadbuffer _ len page address data =>
      lenFits len && fieldFits len 3 page && fieldFits len 5 address && decide (data.length = len - lbHeader)
  | .readbuffer _ e => extraFits e
  | .writeflash _ len b f n e =>
      lenFits len && fieldFits len 3 b && fieldFits len 5 f && fieldFits len 7 n && decide (e.length = len - 9)
  | .flashstatus _ e => extraFits e
  | .readflash _ e => extraFits e
  | .defaultArm _ op e => !namedOpcodes.contains op && extraFits e
  | .ignored p =>
      decide (p.length ≤ maxPayload) && (decide (p.length < minCmdLen) || (p.getD markerPos 0 != marker))
  | .stepWaitSync1 _ => true
  | .stepWaitSync2 _ => true
  | .stepReadType _ => true
  | .stepReadLength _ => true
  | .stepReadPayload _ => true
  | .stepReadChecksumLow _ => true
  | .stepReadChecksumHigh _ => true
  | .rxqPush _ => true
  | .rxqPop => true
  | .send => true
  | .sectorLookup _ => true
  | .erase s => decide (s.toNat < sectorMap.length)
  | .program addr page => decide (addr.toNat % 4 = 0) && decide (page.toNat < nBufPages)
  | .boot => true

end Sys2Proof
end

