-- ==== Sys2Proof/Decode.lean ====
section
/-! DEFINITION. Decoding: a total reading of any bytes, rejecting by name; and after it the encoder, written
from the same tables (30_encoding.md R60, R64, R65, R68, R70). -/

namespace Sys2Proof

/-- Why bytes are no instruction. -/
inductive DecodeError where
  /-- the bytes end before the instruction does -/
  | truncated
  /-- the first two bytes are not BC CF (R60) -/
  | badSync
  /-- a length above 32 (R61, R86) -/
  | overLength
  /-- the checksum does not match (R62, R89) -/
  | checksumMismatch
deriving DecidableEq, Repr

/-- What kind of bytes are read: a byte applied to the framer in state `f`, a frame on the wire, or the
payload of a packet handed to the dispatcher (30_encoding.md R70: BYTESTEP, FRAME, CMD rows). -/
inductive Format where
  | byteStep (f : Fst)
  | wire
  | command
deriving DecidableEq, Repr

/-- Byte-step selection by `fst` alone (40_framing_rx.md R82). -/
def decodeByte (f : Fst) (c : Byte) : Instr :=
  match f with
  | .waitSync1 => .stepWaitSync1 c
  | .waitSync2 => .stepWaitSync2 c
  | .readType => .stepReadType c
  | .readLength => .stepReadLength c
  | .readPayload => .stepReadPayload c
  | .readChecksumLow => .stepReadChecksumLow c
  | .readChecksumHigh => .stepReadChecksumHigh c

/-- Admission (42_commands.md R110): length first, then the marker. -/
def Packet.admitted (p : Packet) : Bool :=
  decide (minCmdLen ≤ p.length.toNat) && (p.byte markerPos == marker)

/-- The command that an admitted packet selects by `cmd[0]` (42_commands.md R111). -/
def decodeCommand (p : Packet) : Instr :=
  let lead := p.byte 0
  let op := p.cmd 0
  let extra := p.valid.drop 3
  if op = 0x10 then .getinfo lead extra
  else if op = 0x12 then .getmapping lead extra
  else if op = 0x14 then
    .loadbuffer lead p.length.toNat (p.cmd16 1) (p.cmd16 3) (p.valid.drop lbHeader)
  else if op = 0x15 then .readbuffer lead extra
  else if op = 0x18 then
    .writeflash lead p.length.toNat (p.cmd16 1) (p.cmd16 3) (p.cmd16 5) (p.valid.drop 9)
  else if op = 0x19 then .flashstatus lead extra
  else if op = 0x1C then .readflash lead extra
  else .defaultArm lead op extra

/-- Every packet is some CMD row (42_commands.md R110 to R122). -/
def decodePacket (p : Packet) : Instr :=
  if p.admitted then decodeCommand p else .ignored p.valid

/-- One frame at the head of the bytes, and the bytes after it (30_encoding.md R60 to R62). -/
def decodeFrame : List Byte → Except DecodeError (Instr × List Byte)
  | s1 :: s2 :: t :: l :: rest =>
    if s1 ≠ sync1 ∨ s2 ≠ sync2 then .error .badSync
    else if maxPayload < l.toNat then .error .overLength
    else
      match rest.drop l.toNat with
      | lo :: hi :: after =>
        if le16 lo hi = cksum16 t l (rest.take l.toNat) then .ok (.frame t (rest.take l.toNat), after)
        else .error .checksumMismatch
      | _ => .error .truncated
  | _ => .error .truncated

/-- The instruction at the head of the bytes, and the bytes after it. A packet's payload is read whole. -/
def decode : Format → List Byte → Except DecodeError (Instr × List Byte)
  | .byteStep f, c :: rest => .ok (decodeByte f c, rest)
  | .byteStep _, [] => .error .truncated
  | .wire, bytes => decodeFrame bytes
  | .command, bytes =>
    if bytes.length ≤ maxPayload then .ok (decodePacket (Packet.ofFrame 0 bytes), []) else .error .overLength

/-! The encoder. -/

/-- The bytes of a frame of this type and payload (30_encoding.md R60). -/
def frameBytes (t : Byte) (payload : List Byte) : List Byte :=
  let l := BitVec.ofNat 8 payload.length
  [sync1, sync2, t, l] ++ payload ++ [lo8 (cksum16 t l payload), hi8 (cksum16 t l payload)]

/-- The payload of a command with this opcode (30_encoding.md R64, R71). -/
def commandBytes (lead opcode : Byte) (args : List Byte) : List Byte := [lead, marker, opcode] ++ args

/-- A 16-bit field, low byte first (20_memory.md R44). -/
def halfBytes (v : Half) : List Byte := [lo8 v, hi8 v]

/-- The bytes of an instruction: a frame's, a command's payload, a byte-step's byte. The internal operations
have no encoding (30_encoding.md R70) and give no bytes. -/
def encode : Instr → List Byte
  | .frame t p => frameBytes t p
  | .getinfo lead e => commandBytes lead 0x10 e
  | .getmapping lead e => commandBytes lead 0x12 e
  | .loadbuffer lead len page address data =>
      (commandBytes lead 0x14 (halfBytes page ++ halfBytes address ++ data)).take len
  | .readbuffer lead e => commandBytes lead 0x15 e
  | .writeflash lead len b f n e =>
      (commandBytes lead 0x18 (halfBytes b ++ halfBytes f ++ halfBytes n ++ e)).take len
  | .flashstatus lead e => commandBytes lead 0x19 e
  | .readflash lead e => commandBytes lead 0x1C e
  | .defaultArm lead op e => commandBytes lead op e
  | .ignored p => p
  | .stepWaitSync1 c => [c]
  | .stepWaitSync2 c => [c]
  | .stepReadType c => [c]
  | .stepReadLength c => [c]
  | .stepReadPayload c => [c]
  | .stepReadChecksumLow c => [c]
  | .stepReadChecksumHigh c => [c]
  | .rxqPush _ => []
  | .rxqPop => []
  | .send => []
  | .sectorLookup _ => []
  | .erase _ => []
  | .program _ _ => []
  | .boot => []

/-- The format an instruction is encoded in; none for an internal operation (30_encoding.md R70). -/
def Instr.format : Instr → Option Format
  | .frame _ _ => some .wire
  | .getinfo _ _ => some .command
  | .getmapping _ _ => some .command
  | .loadbuffer _ _ _ _ _ => some .command
  | .readbuffer _ _ => some .command
  | .writeflash _ _ _ _ _ _ => some .command
  | .flashstatus _ _ => some .command
  | .readflash _ _ => some .command
  | .defaultArm _ _ _ => some .command
  | .ignored _ => some .command
  | .stepWaitSync1 _ => some (.byteStep .waitSync1)
  | .stepWaitSync2 _ => some (.byteStep .waitSync2)
  | .stepReadType _ => some (.byteStep .readType)
  | .stepReadLength _ => some (.byteStep .readLength)
  | .stepReadPayload _ => some (.byteStep .readPayload)
  | .stepReadChecksumLow _ => some (.byteStep .readChecksumLow)
  | .stepReadChecksumHigh _ => some (.byteStep .readChecksumHigh)
  | .rxqPush _ => none
  | .rxqPop => none
  | .send => none
  | .sectorLookup _ => none
  | .erase _ => none
  | .program _ _ => none
  | .boot => none

/-! The words of spec/opcode_table.json. -/

/-- The low `n` bytes of `w`, the least significant first. -/
def natBytes : Nat → Nat → List Byte
  | 0, _ => []
  | n + 1, w => BitVec.ofNat 8 w :: natBytes n (w / 256)

/-- How a word of the opcode table is read (30_encoding.md R70): one byte is a byte-step; a wider word whose low
16 bits are CFBC is a frame; any other is a command selector.
DEDUCED (safe, log 20): a byte-step row is selected by `fst`, which a word does not hold; CF is the byte that
the WaitSync2 row tests, every other byte is read in WaitSync1, the framer state after reset. -/
def tableFormat (nbits w : Nat) : Format :=
  if nbits ≤ 8 then .byteStep (if w % 256 = 0xCF then .waitSync2 else .waitSync1)
  else if w % 65536 = 0xCFBC then .wire
  else .command

/-- The bytes of a word of the opcode table in their order on the wire or in the payload, zeros above `nbits`.
A frame is filled up to the longest frame, a command selector to the least admitted length. -/
def tableBytes (nbits w : Nat) : List Byte :=
  match tableFormat nbits w with
  | .byteStep _ => natBytes 1 w
  | .wire => natBytes 38 (w % 2 ^ nbits)
  | .command => natBytes (max minCmdLen (nbits / 8)) (w % 2 ^ nbits)

/-- The instruction that the decoder reads from a word of the opcode table. -/
def decodeTableWord (nbits w : Nat) : Option Instr :=
  match decode (tableFormat nbits w) (tableBytes nbits w) with
  | .ok (i, _) => some i
  | .error _ => none

end Sys2Proof
end

