-- ==== Sys2Proof/Machine/Flash.lean ====
section
/-! DEFINITION. The flash erase/program sequencer (43_flash_sequencer.md). `erase` and `program` take one
controller operation per step, found from `wf_phase` and `wf_w` (42_commands.md R123). -/

namespace Sys2Proof.Machine

/-- The address and phase of a page, chosen by the sector lookup: erase first where the address starts a sector,
else program (42_commands.md R119; 43_flash_sequencer.md R142). -/
def State.beginPage (s : State) (addr : Word) : State :=
  match sectorIndex addr with
  | some i => { s with wfAddr := addr, wfS := BitVec.ofNat 4 i, wfPhase := .eWait1 }
  | none => { s with wfAddr := addr, wfPhase := .pWait1 }

/-- sector_lookup, at the top of the page loop (43_flash_sequencer.md R142; 42_commands.md R119; log 8). -/
def execSectorLookup (addr : Word) (s : State) : Result :=
  whenEnabled (decide (s.top = .flash) && decide (s.wfPhase = .head)) (.next (s.beginPage addr))

/-- erase: the next operation of its four numbered ones (43_flash_sequencer.md R143). The two key writes are issued whether
or not the controller is unlocked (R146). DESIGN CHOICE (unsafe, log 31): they change nothing in the environment. -/
def execErase (sector : BitVec 4) (s : State) : Result :=
  whenEnabled (decide (s.top = .flash))
    (match s.wfPhase with
     | .eWait1 => .next (s.pollBusy (fun s => s.setPhase .eKey1))
     | .eKey1 => .next ((s.emit (.fc .key1)).setPhase .eKey2)
     | .eKey2 => .next ((s.emit (.fc .key2)).setPhase .eCfg)
     | .eCfg => .next ((s.configure (eraseCfg sector)).setPhase .eWait2)
     | .eWait2 => .next (s.pollBusy (fun s => s.setPhase .pWait1))
     | _ => .refused .notEnabled)

/-- After the wait that follows word `wf_w`: the next word, or, after word 255, the next page of the loop
(43_flash_sequencer.md R144; 42_commands.md R119). -/
def State.afterWord (s : State) : State :=
  if s.wfW = 255 then { s with wfI := s.wfI + 1, wfPhase := .head }
  else { s with wfW := s.wfW + 1, wfPhase := .pWord }

/-- program: the next operation of its four numbered ones; word `w` of the data goes to `addr + 4*w`
(43_flash_sequencer.md R144). The two key writes are issued as in `execErase`. DESIGN CHOICE (unsafe, log 31): they change
nothing in the environment. -/
def execProgram (addr : Word) (page : BitVec 4) (s : State) : Result :=
  whenEnabled (decide (s.top = .flash))
    (match s.wfPhase with
     | .pWait1 => .next (s.pollBusy (fun s => s.setPhase .pKey1))
     | .pKey1 => .next ((s.emit (.fc .key1)).setPhase .pKey2)
     | .pKey2 => .next ((s.emit (.fc .key2)).setPhase .pCfg)
     | .pCfg => .next ({ s.configure programCfg with wfW := 0, wfPhase := .pWord })
     | .pWord =>
       (match s.stageWord page.toNat s.wfW.toNat with
        | some v => .next ((s.writeWord (addr + BitVec.ofNat 32 (4 * s.wfW.toNat)) v).setPhase .pWaitW)
        | none => .fault .stageIndex)
     | .pWaitW => .next (s.pollBusy State.afterWord)
     | _ => .refused .notEnabled)

end Sys2Proof.Machine
end

