-- ==== Sys2Proof/Machine/Commands.lean ====
section
/-! DEFINITION. The command dispatcher's arms (42_commands.md): every command is taken where `top = Dispatch`; a
WRITEFLASH is taken up again at the top of its page loop. -/

namespace Sys2Proof.Machine

/-- A command is taken where a packet waits to be dispatched (42_commands.md R123). -/
def dispatching (s : State) (r : Result) : Result := whenEnabled (decide (s.top = .dispatch)) r

/-- GETINFO (42_commands.md R113). -/
def execGetinfo (s : State) : Result :=
  let half (n : Nat) := halfBytes (BitVec.ofNat 16 n)
  let p := (s.pkt.putCmd 1 (half pageSize ++ half nBufPages ++ half nFlashPages ++ half flashStartPage)).putCmd 21 [version]
  dispatching s (.next ((s.setPkt { p with length := infoReplyLen }).finishCommand true))

/-- GETMAPPING: the reply is built and not sent (42_commands.md R114, 90_conflicts.md C7). -/
def execGetmapping (s : State) : Result :=
  let p := s.pkt.putCmd 1 mappingTable
  dispatching s (.next ((s.setPkt { p with length := mapReplyLen }).finishCommand false))

/-- The LOADBUFFER bounds check, over unbounded integers (42_commands.md R116). -/
def boundsOk (len page address : Nat) : Bool :=
  decide (lbHeader ≤ len) && decide (page < nBufPages) && decide (address + (len - lbHeader) ≤ pageSize)

/-- LOADBUFFER: all bytes or none (42_commands.md R115, R116). -/
def execLoadbuffer (len : Nat) (page address : Half) (data : List Byte) (s : State) : Result :=
  dispatching s
    (if boundsOk len page.toNat address.toNat then
       match s.stageWrite page.toNat address.toNat data with
       | some s' => .next (s'.finishCommand false)
       | none => .fault .stageIndex
     else .next (s.raise .boundsViolation))

/-- READBUFFER: not implemented, ignored (42_commands.md R117). -/
def execReadbuffer (s : State) : Result := dispatching s (.next (s.raise .ignored))

/-- The two status bytes and length of a status reply (42_commands.md R118, R120; decision D12, log 18). -/
def Packet.statusReply (p : Packet) : Packet :=
  { p.putCmd 1 [statusDone, statusError] with length := statusReplyLen }

/-- The top of the page loop: the next page, the fault at index 10, or, after the last page, the reply
(42_commands.md R118, R119, R126). -/
def State.pageLoop (s : State) : State :=
  if s.wfI.toNat < s.wfN.toNat then
    if s.wfI.toNat < nBufPages then s.beginPage (flashPageAddr (s.wfFpage.toNat + s.wfI.toNat))
    else s.raise .stageIndexFault
  else (s.setPkt (Packet.statusReply s.pkt)).finishCommand true

/-- WRITEFLASH: at dispatch its registers are loaded; at the top of the page loop it goes on (42_commands.md R118,
R119). `buffer_page` is read and not used (90_conflicts.md C8). -/
def execWriteflash (bufferPage flashPage nPages : Half) (s : State) : Result :=
  match s.top with
  | .dispatch =>
    .next
      { s with
        wfBpage := bufferPage, wfFpage := flashPage, wfN := nPages, wfI := 0, wfPhase := .head, top := .flash }
  | .flash => whenEnabled (decide (s.wfPhase = .head)) (.next s.pageLoop)
  | _ => .refused .notEnabled

/-- FLASHSTATUS: a fixed success status (42_commands.md R120). -/
def execFlashstatus (s : State) : Result :=
  dispatching s (.next ((s.setPkt (Packet.statusReply s.pkt)).finishCommand true))

/-- READFLASH: not implemented, ignored (42_commands.md R121). -/
def execReadflash (s : State) : Result := dispatching s (.next (s.raise .ignored))

/-- DEFAULT: an unnamed opcode is ignored (42_commands.md R122). -/
def execDefaultArm (s : State) : Result := dispatching s (.next (s.raise .ignored))

/-- IGNORED: a packet that fails admission (42_commands.md R110). -/
def execIgnored (s : State) : Result := dispatching s (.next (s.raise .ignored))

end Sys2Proof.Machine
end

