-- ==== Sys2Proof/Machine/Framing.lean ====
section
/-! DEFINITION. The receive path (40_framing_rx.md): the seven byte-steps, the queue operations and the
reception of a whole frame. -/

namespace Sys2Proof.Machine

/-- A byte-step is taken where CORE polls and `fst` selects it (40_framing_rx.md R81, R82). -/
def byteStepAt (f : Fst) (s : State) (r : Result) : Result :=
  whenEnabled (decide (s.top = .poll) && decide (s.fst = f)) r

/-- STEP.WaitSync1 (40_framing_rx.md R83). -/
def execStepWaitSync1 (c : Byte) (s : State) : Result :=
  byteStepAt .waitSync1 s (.next (if c = sync1 then s.setFst .waitSync2 else s.raise .badSync))

/-- STEP.WaitSync2 (40_framing_rx.md R84). -/
def execStepWaitSync2 (c : Byte) (s : State) : Result :=
  byteStepAt .waitSync2 s (.next (if c = sync2 then s.setFst .readType else s.raise .badSync))

/-- STEP.ReadType: a fresh packet (40_framing_rx.md R85). -/
def execStepReadType (c : Byte) (s : State) : Result :=
  byteStepAt .readType s
    (.next ((s.setPkt { type := c, length := 0, payload := Vector.replicate 32 0, cksum := 0 }).setFst .readLength))

/-- STEP.ReadLength (40_framing_rx.md R86). -/
def execStepReadLength (c : Byte) (s : State) : Result :=
  let s' := s.setPkt { s.pkt with length := c }
  byteStepAt .readLength s
    (.next
      (if maxPayload < c.toNat then s'.raise .overLength
       else if c = 0 then s'.setFst .readChecksumLow
       else (s'.setRxCount 0).setFst .readPayload))

/-- STEP.ReadPayload (40_framing_rx.md R87). -/
def execStepReadPayload (c : Byte) (s : State) : Result :=
  byteStepAt .readPayload s
    (if s.rxCount.toNat < maxPayload then
       let s' := (s.setPkt (s.pkt.put s.rxCount.toNat c)).setRxCount (s.rxCount + 1)
       .next (if s.rxCount.toNat + 1 = s.pkt.length.toNat then s'.setFst .readChecksumLow else s')
     else .fault .payloadIndex)

/-- STEP.ReadChecksumLow (40_framing_rx.md R88). -/
def execStepReadChecksumLow (c : Byte) (s : State) : Result :=
  byteStepAt .readChecksumLow s
    (.next ((s.setPkt { s.pkt with cksum := le16 c (hi8 s.pkt.cksum) }).setFst .readChecksumHigh))

/-- STEP.ReadChecksumHigh: all 16 bits are compared; a match yields the packet to the dispatcher
(40_framing_rx.md R89, R90). -/
def execStepReadChecksumHigh (c : Byte) (s : State) : Result :=
  byteStepAt .readChecksumHigh s
    (if s.pkt.length.toNat ≤ maxPayload then
       let p := { s.pkt with cksum := le16 (lo8 s.pkt.cksum) c }
       let ok := decide (p.cksum = cksum16 p.type p.length p.valid)
       let s' := { (s.setPkt p).setCkAcc (ckAcc p.type p.length p.valid) with ckOk := ok }
       .next (if ok then (s'.setFst .waitSync1).setTop .dispatch else s'.raise .checksumMismatch)
     else .fault .payloadIndex)

/-- Byte-step selection: the byte is applied to the one rule that `fst` selects (40_framing_rx.md R82). -/
def applyByte (c : Byte) (s : State) : Result :=
  match s.fst with
  | .waitSync1 => execStepWaitSync1 c s
  | .waitSync2 => execStepWaitSync2 c s
  | .readType => execStepReadType c s
  | .readLength => execStepReadLength c s
  | .readPayload => execStepReadPayload c s
  | .readChecksumLow => execStepReadChecksumLow c s
  | .readChecksumHigh => execStepReadChecksumHigh c s

/-- RXQ.push, the step of LINE: enabled in every state (40_framing_rx.md R80). A byte that finds the queue full is
the class QueueOverflow, which changes nothing (60_exceptions.md R167). -/
def execRxqPush (c : Byte) (s : State) : Result :=
  .next (if s.rxq.length < rxqCap then s.setRxq (s.rxq ++ [c]) else s.raise .queueOverflow)

/-- RXQ.pop, CORE's poll: nothing on an empty queue, else the oldest byte is consumed and applied in the same
step (40_framing_rx.md R81). -/
def execRxqPop (s : State) : Result :=
  whenEnabled (decide (s.top = .poll))
    (match s.rxq with
     | [] => .next s
     | c :: rest => applyByte c (s.setRxq rest))

/-- LINE offers one byte, then CORE polls if it is polling. -/
def receiveByte (c : Byte) (s : State) : Result :=
  andThen (execRxqPush c s) (fun s' => if s'.top = .poll then execRxqPop s' else .next s')

/-- The bytes arrive in order, each followed by one poll. -/
def receiveBytes : List Byte → State → Result
  | [], s => .next s
  | c :: cs, s => andThen (receiveByte c s) (receiveBytes cs)

/-- FRAME: the frame's 6 + L bytes are received (30_encoding.md R60; 40_framing_rx.md R83 to R90; log 14). -/
def execFrame (t : Byte) (payload : List Byte) (s : State) : Result :=
  receiveBytes (frameBytes t payload) s

end Sys2Proof.Machine
end

