-- ==== Sys2Proof/Machine/Transmit.lean ====
section
/-! DEFINITION. The transmit path (41_framing_tx.md): one `SINK.put` of the outbound frame per step. -/

namespace Sys2Proof.Machine

/-- `pkt.cksum <- cksum16(pkt.type, pkt.length, pkt.payload)` (41_framing_tx.md R101, R103). -/
def State.finalize (s : State) : State :=
  let p := s.pkt
  (s.setPkt { p with cksum := cksum16 p.type p.length p.valid }).setCkAcc (ckAcc p.type p.length p.valid)

/-- The bytes of the outbound frame, in the order they are offered (41_framing_tx.md R101). -/
def Packet.wire (p : Packet) : List Byte :=
  [sync1, sync2, p.type, p.length] ++ p.valid ++ [lo8 p.cksum, hi8 p.cksum]

/-- SEND: the checksum is computed before the first byte; a byte that the sink accepts is gone, and after the last
one CORE polls again; a sink that does not accept makes CORE wait (41_framing_tx.md R101, R102; log 10). -/
def execSend (s : State) : Result :=
  let s' := if s.txIdx = 0 then s.finalize else s
  whenEnabled (decide (s.top = .send))
    (if s.pkt.length.toNat ≤ maxPayload then
       match (Packet.wire s'.pkt)[s.txIdx.toNat]? with
       | none => .fault .payloadIndex
       | some c =>
         .next
           (if s.env.sinkReady then
              let s'' := s'.emit (.sinkPut c)
              if s.txIdx.toNat = s.pkt.length.toNat + 5 then s''.setTop .poll
              else { s'' with txIdx := s.txIdx + 1 }
            else s')
     else .fault .payloadIndex)

end Sys2Proof.Machine
end

