-- ==== Sys2Proof/Machine/Dispatch.lean ====
section
/-! DEFINITION. The meaning of every instruction, one arm each. -/

namespace Sys2Proof.Machine

def exec (i : Instr) (s : State) : Host.Outcome State Fault Refusal :=
  match i with
  | .frame t payload => Sys2Proof.Machine.execFrame t payload s
  -- the dispatcher (operands that only the packet register carries into the reply are not passed)
  | .getinfo _ _ => Sys2Proof.Machine.execGetinfo s
  | .getmapping _ _ => Sys2Proof.Machine.execGetmapping s
  | .loadbuffer _ len page address data => Sys2Proof.Machine.execLoadbuffer len page address data s
  | .readbuffer _ _ => Sys2Proof.Machine.execReadbuffer s
  | .writeflash _ _ bufferPage flashPage nPages _ => Sys2Proof.Machine.execWriteflash bufferPage flashPage nPages s
  | .flashstatus _ _ => Sys2Proof.Machine.execFlashstatus s
  | .readflash _ _ => Sys2Proof.Machine.execReadflash s
  | .defaultArm _ _ _ => Sys2Proof.Machine.execDefaultArm s
  | .ignored _ => Sys2Proof.Machine.execIgnored s
  -- the byte-steps of the framer
  | .stepWaitSync1 c => Sys2Proof.Machine.execStepWaitSync1 c s
  | .stepWaitSync2 c => Sys2Proof.Machine.execStepWaitSync2 c s
  | .stepReadType c => Sys2Proof.Machine.execStepReadType c s
  | .stepReadLength c => Sys2Proof.Machine.execStepReadLength c s
  | .stepReadPayload c => Sys2Proof.Machine.execStepReadPayload c s
  | .stepReadChecksumLow c => Sys2Proof.Machine.execStepReadChecksumLow c s
  | .stepReadChecksumHigh c => Sys2Proof.Machine.execStepReadChecksumHigh c s
  -- the internal operations
  | .rxqPush c => Sys2Proof.Machine.execRxqPush c s
  | .rxqPop => Sys2Proof.Machine.execRxqPop s
  | .send => Sys2Proof.Machine.execSend s
  | .sectorLookup addr => Sys2Proof.Machine.execSectorLookup addr s
  | .erase sector => Sys2Proof.Machine.execErase sector s
  | .program addr page => Sys2Proof.Machine.execProgram addr page s
  | .boot => Sys2Proof.Machine.execBoot s

end Sys2Proof.Machine
end

