-- ==== Sys2Proof/Machine/Fetch.lean ====
section
/-! DEFINITION. Which instruction CORE takes next (42_commands.md R123). Nothing is fetched from memory
(00_scope.md R7): the queue, the packet register and the sequencer's registers hold it. -/

namespace Sys2Proof.Machine

/-- The instruction that CORE's next step runs, by the value of `top` (42_commands.md R123); none in App and Fault. -/
def fetch (s : State) : Option Instr :=
  match s.top with
  | .boot => some .boot
  | .app => none
  | .fault => none
  | .poll =>
    match s.rxq with
    | [] => some .rxqPop
    | c :: _ => some (decodeByte s.fst c)
  | .dispatch => some (decodePacket s.pkt)
  | .send => some .send
  | .flash =>
    match s.wfPhase with
    | .head =>
      if s.wfI.toNat < s.wfN.toNat ∧ s.wfI.toNat < nBufPages then
        some (.sectorLookup (flashPageAddr (s.wfFpage.toNat + s.wfI.toNat)))
      else
        some (.writeflash (s.pkt.byte 0) s.pkt.length.toNat s.wfBpage s.wfFpage s.wfN (s.pkt.valid.drop 9))
    | .eWait1 => some (.erase s.wfS)
    | .eKey1 => some (.erase s.wfS)
    | .eKey2 => some (.erase s.wfS)
    | .eCfg => some (.erase s.wfS)
    | .eWait2 => some (.erase s.wfS)
    | .pWait1 => some (.program s.wfAddr s.wfI)
    | .pKey1 => some (.program s.wfAddr s.wfI)
    | .pKey2 => some (.program s.wfAddr s.wfI)
    | .pCfg => some (.program s.wfAddr s.wfI)
    | .pWord => some (.program s.wfAddr s.wfI)
    | .pWaitW => some (.program s.wfAddr s.wfI)

/-- Where CORE polls, the oldest byte of the queue leaves it (40_framing_rx.md R81); elsewhere nothing is consumed. -/
def State.consume (s : State) : State := if s.top = .poll then s.setRxq s.rxq.tail else s

/-- The next turn goes to `t`. -/
def State.giveTurn (s : State) (t : Turn) : State := s.setEnv { s.env with turns := t :: s.env.turns }

/-- `s` with the instruction of an opcode-table word placed where the next step takes it (logs 19, 20): a byte at the
head of the queue under the framer state that selects its row; a frame on the line, the framer hunting; a packet of
that payload waiting to be dispatched. -/
def placeWord (s : State) (nbits w : Nat) : State :=
  match tableFormat nbits w with
  | .byteStep f => ({ s with top := .poll, fst := f, rxq := tableBytes nbits w ++ s.rxq }).giveTurn .core
  | .wire =>
    match decodeFrame (tableBytes nbits w) with
    | .ok (.frame t payload, _) => ({ s with top := .poll, fst := .waitSync1 }).giveTurn (.frame t payload)
    | _ => s
  | .command =>
    let bytes := tableBytes nbits w
    ({ s with
       top := .dispatch
       pkt := { s.pkt with length := BitVec.ofNat 8 bytes.length, payload := paddedPayload bytes } }).giveTurn .core

end Sys2Proof.Machine
end

