-- ==== Sys2Proof/Machine/Step.lean ====
section
/-! DEFINITION. One step of the machine: one step of one agent (00_scope.md R5). -/

namespace Sys2Proof.Machine

/-- CORE's step: the instruction that `top` selects; none in App and Fault, where CORE stays as it is
(42_commands.md R123; log 13). -/
def coreStep (s : State) : Host.Outcome State Fault Refusal :=
  match fetch s with
  | some i => exec i s.consume
  | none => .next s

/-- The step of the agent whose turn it is (00_scope.md R5; log 1). -/
def takeTurn (t : Turn) (s : State) : Host.Outcome State Fault Refusal :=
  match t with
  | .core => coreStep s
  | .line c => exec (.rxqPush c) s
  | .frame ty payload => exec (.frame ty payload) s
  | .fc busy => .next (s.setEnv { s.env with fcBusy := busy })
  | .sink ready => .next (s.setEnv { s.env with sinkReady := ready })
  | .pin level => .next (s.setEnv { s.env with bootPin := level })
  | .reset => .next s.hardwareReset

/-- One step: the first listed turn is taken and leaves the list; with no turn listed it is CORE's (log 1). -/
def step (s : State) : Host.Outcome State Fault Refusal :=
  match s.env.turns with
  | [] => coreStep s
  | t :: ts => takeTurn t (s.setEnv { s.env with turns := ts })

/-- `s` with the instruction of an opcode-table word placed so that the very next step runs it (log 19). -/
def State.withFetchWord (s : State) (nbits w : Nat) : State := placeWord s nbits w

end Sys2Proof.Machine
end

