-- ==== Sys2Proof/Safety.lean ====
section
/-! DEFINITION. The terms that claims use: the invariant of the machine, what counts as a run gone wrong, and
what an observer sees. -/

namespace Sys2Proof.Machine

/-- The receive side: the queue holds at most 64 bytes; a frame in reception has an accepted length, and fewer
payload bytes stored than announced (10_state.md R13, R17; 40_framing_rx.md R86, R87). -/
def State.rxInv (s : State) : Prop :=
  s.rxq.length ≤ rxqCap ∧
  (s.fst = .readPayload → s.rxCount.toNat < s.pkt.length.toNat) ∧
  (s.fst = .readPayload ∨ s.fst = .readChecksumLow ∨ s.fst = .readChecksumHigh → s.pkt.length.toNat ≤ maxPayload)

/-- A packet that is dispatched has at most 32 payload bytes (10_state.md R12); one that is sent has length 24 or 5, and
its next byte lies inside the frame (41_framing_tx.md R104, 10_state.md R21). The framer hunts for the next frame. -/
def State.packetInv (s : State) : Prop :=
  (s.top = .dispatch → s.pkt.length.toNat ≤ maxPayload) ∧
  (s.top = .send →
    (s.pkt.length = infoReplyLen ∨ s.pkt.length = statusReplyLen) ∧ s.txIdx.toNat ≤ s.pkt.length.toNat + 5) ∧
  (s.top = .dispatch ∨ s.top = .flash ∨ s.top = .send → s.fst = .waitSync1)

/-- The sequencer: inside a page the loop index addresses a staging page and the address is that page's, formed from
the command's parameters; inside an erase the sector is the one that starts there (42_commands.md R119). -/
def State.flashInv (s : State) : Prop :=
  s.top = .flash →
    s.wfI.toNat ≤ nBufPages ∧
    (s.wfPhase ≠ .head →
      s.wfI.toNat < nBufPages ∧ s.wfI.toNat < s.wfN.toNat ∧
      s.wfAddr = flashPageAddr (s.wfFpage.toNat + s.wfI.toNat)) ∧
    (s.wfPhase = .eWait1 ∨ s.wfPhase = .eKey1 ∨ s.wfPhase = .eKey2 ∨ s.wfPhase = .eCfg ∨ s.wfPhase = .eWait2 →
      sectorIndex s.wfAddr = some s.wfS.toNat)

/-- The memories: both in canonical form, and no cell of the staging store outside its 10240 bytes. -/
def State.memInv (s : State) : Prop :=
  Memory.wf stageDefault s.stage = true ∧
  (∀ c ∈ s.stage, c.1 < nBufPages * pageSize) ∧
  Memory.wf flashDefault s.env.flash = true

/-- The machine's invariant. -/
structure State.Inv (s : State) : Prop where
  rx : s.rxInv
  packet : s.packetInv
  flash : s.flashInv
  mem : s.memInv

/-- A run gone wrong: the sticky halt of 42_commands.md R126, which a model must not take for a final state. -/
def State.goneWrong (s : State) : Prop := s.top = .fault

/-- A run that ends control of the block: the application has it until reset (70_reset_and_hazards.md R182). -/
def State.handedOver (s : State) : Prop := s.top = .app

/-- The bytes given to the sink, in order (10_state.md R26 (1)). -/
def State.sentBytes (s : State) : List Byte :=
  s.env.trace.filterMap (fun e => match e with | .sinkPut c => some c | _ => none)

/-- The controller operations, in order (10_state.md R26 (2)). -/
def State.fcOps (s : State) : List FcOp :=
  s.env.trace.filterMap (fun e => match e with | .fc op => some op | _ => none)

/-- The diagnostic events, in order (10_state.md R26 (3)). -/
def State.diags (s : State) : List Diag :=
  s.env.trace.filterMap (fun e => match e with | .diag d => some d | _ => none)

/-! The operations of a WRITEFLASH on a controller that is idle at every poll (43_flash_sequencer.md R148). -/

/-- `E(s)`. -/
def eraseOps (s : BitVec 4) : List FcOp := [.isBusy false, .key1, .key2, .configure (eraseCfg s), .isBusy false]

/-- `P(A, D)`, where `word w` is word `w` of the data. -/
def programOps (addr : Word) (word : Nat → Word) : List FcOp :=
  [.isBusy false, .key1, .key2, .configure programCfg] ++
    (List.range 256).flatMap (fun w => [.writeWord (addr + BitVec.ofNat 32 (4 * w)) (word w), .isBusy false])

/-- The operations of one page: its sector is erased first where its address starts one. -/
def pageOps (addr : Word) (word : Nat → Word) : List FcOp :=
  (match sectorIndex addr with
   | some i => eraseOps (BitVec.ofNat 4 i)
   | none => []) ++ programOps addr word

/-- The operations of `n` pages from flash page `fpage` up, where `word i w` is word `w` of staging page `i`. -/
def writeFlashOps (fpage n : Nat) (word : Nat → Nat → Word) : List FcOp :=
  (List.range n).flatMap (fun i => pageOps (flashPageAddr (fpage + i)) (word i))

end Sys2Proof.Machine
end

