-- ==== Sys2Proof/Certificates/Slice0/Obligations.lean ====
section
/-! DEFINITION. The statements for the provers. Each docstring names the rule of spec/ that the statement formalises,
or says that it rests on a choice of the model. A clause `t = { s with … }` is a frame: every field that it does not
name is unchanged. "Decision D<n>" is a point that spec/92_eei_decisions.md marks as the spec's own choice (log 18). -/

open Sys2Proof Sys2Proof.Machine

/-! Encoding. -/

/-- Decoding an encoded well-formed instruction gives it back (30_encoding.md sections 1 to 3). -/
def Obligations.DecodeOfEncodeIsTheInstruction : Prop :=
  ∀ (i : Instr) (f : Format), i.wf = true → i.format = some f → decode f (encode i) = .ok (i, [])

/-- Every payload of at most 32 bytes is exactly one command, and encoding that command gives the bytes back: the
decoder drops no bit (30_encoding.md R64 to R69). -/
def Obligations.EncodeOfDecodedPayloadIsThePayload : Prop :=
  ∀ bytes : List Byte, bytes.length ≤ 32 →
    ∃ i, decode .command bytes = .ok (i, []) ∧ i.wf = true ∧ encode i = bytes

/-- The wire decoder accepts exactly the frames of R60 and leaves what follows them. -/
def Obligations.WireDecodesExactlyTheFrames : Prop :=
  ∀ (bytes rest : List Byte) (i : Instr),
    decode .wire bytes = .ok (i, rest) ↔
      ∃ (t : Byte) (p : List Byte), p.length ≤ 32 ∧ i = .frame t p ∧
        bytes = [0xBC, 0xCF, t, BitVec.ofNat 8 p.length] ++ p ++
          [lo8 (cksum16 t (BitVec.ofNat 8 p.length) p), hi8 (cksum16 t (BitVec.ofNat 8 p.length) p)] ++ rest

/-- A few words read right: the bits of spec/95_test_vectors.md V-CMD-1, V-LB-12 (shortened), V-WF-3, V-CMD-13 and V-CK-11. -/
def Obligations.SampleWordsDecodeRight : Prop :=
  decode .command [0x00, 0xFF, 0x10] = .ok (.getinfo 0x00 [], []) ∧
  decode .command [0x00, 0xFF, 0x14, 0x01, 0x00, 0x00, 0x01, 0x05, 0x06] =
    .ok (.loadbuffer 0x00 9 1 256 [0x05, 0x06], []) ∧
  decode .command [0x00, 0xFF, 0x18, 0x05, 0x00, 0x1F, 0x00, 0x02, 0x00] =
    .ok (.writeflash 0x00 9 5 31 2 [], []) ∧
  decode .command [0x00, 0xFE, 0x10] = .ok (.ignored [0x00, 0xFE, 0x10], []) ∧
  decode .wire [0xBC, 0xCF, 0x00, 0x01, 0xAA, 0xAB, 0xAC] = .ok (.frame 0x00 [0xAA], [])

/-! The step. -/

/-- A step of CORE runs the instruction that is fetched: with no turn listed, and when the listed turn is CORE's. While
CORE polls, the byte that the instruction is made of leaves the queue (40_framing_rx.md R81); nothing else is added.
The list of turns is the model's choice (log 1). -/
def Obligations.StepRunsTheFetchedInstruction : Prop :=
  ∀ (s : State) (i : Instr), fetch s = some i →
    (s.env.turns = [] →
      step s = exec i (if s.top = .poll then { s with rxq := s.rxq.tail } else s)) ∧
    (∀ ts, s.env.turns = .core :: ts →
      step s =
        exec i
          (if s.top = .poll then { s with rxq := s.rxq.tail, env := { s.env with turns := ts } }
           else { s with env := { s.env with turns := ts } }))

/-- What is fetched: a byte of the queue under `fst`, the waiting packet, the next operation of SEND or of the
sequencer, the mode decision (42_commands.md section 3, 40_framing_rx.md R82). That the top of the page loop is a step
of its own is the model's choice (log 8). -/
def Obligations.FetchIsSelectedByTop : Prop :=
  ∀ s : State,
    (s.top = .boot → fetch s = some .boot) ∧
    (s.top = .app ∨ s.top = .fault → fetch s = none) ∧
    (s.top = .poll → s.rxq = [] → fetch s = some .rxqPop) ∧
    (∀ c rest, s.top = .poll → s.rxq = c :: rest →
      ∀ i, decode (.byteStep s.fst) [c] = .ok (i, []) → fetch s = some i) ∧
    (s.top = .dispatch → fetch s = some (decodePacket s.pkt)) ∧
    (s.top = .send → fetch s = some .send) ∧
    (s.top = .flash →
      ((s.wfPhase = .eWait1 ∨ s.wfPhase = .eKey1 ∨ s.wfPhase = .eKey2 ∨ s.wfPhase = .eCfg ∨ s.wfPhase = .eWait2) →
        fetch s = some (.erase s.wfS)) ∧
      ((s.wfPhase = .pWait1 ∨ s.wfPhase = .pKey1 ∨ s.wfPhase = .pKey2 ∨ s.wfPhase = .pCfg ∨ s.wfPhase = .pWord ∨
          s.wfPhase = .pWaitW) →
        fetch s = some (.program s.wfAddr s.wfI)) ∧
      (s.wfPhase = .head →
        (s.wfI.toNat < s.wfN.toNat ∧ s.wfI.toNat < 10 →
          fetch s = some (.sectorLookup (flashPageAddr (s.wfFpage.toNat + s.wfI.toNat)))) ∧
        (¬ (s.wfI.toNat < s.wfN.toNat ∧ s.wfI.toNat < 10) →
          ∃ lead len extra, fetch s = some (.writeflash lead len s.wfBpage s.wfFpage s.wfN extra))))

/-! The byte-steps. -/

/-- 40_framing_rx.md R83. -/
def Obligations.WaitSync1Step : Prop :=
  ∀ (c : Byte) (s : State), s.top = .poll → s.fst = .waitSync1 →
    exec (.stepWaitSync1 c) s = .next (if c = 0xBC then { s with fst := .waitSync2 } else { s with rxCount := 0 })

/-- 40_framing_rx.md R84. -/
def Obligations.WaitSync2Step : Prop :=
  ∀ (c : Byte) (s : State), s.top = .poll → s.fst = .waitSync2 →
    exec (.stepWaitSync2 c) s = .next { s with fst := if c = 0xCF then .readType else .waitSync1 }

/-- 40_framing_rx.md R85. What a fresh packet holds, and when it is made, is the spec's decision D4. -/
def Obligations.ReadTypeStep : Prop :=
  ∀ (c : Byte) (s : State), s.top = .poll → s.fst = .readType →
    ∃ t, exec (.stepReadType c) s = .next t ∧ t = { s with fst := .readLength, pkt := t.pkt } ∧
      t.pkt.type = c ∧ t.pkt.length = 0 ∧ t.pkt.cksum = 0 ∧ ∀ i, i < 32 → t.pkt.byte i = 0

/-- 40_framing_rx.md R86. The rejection of a length above 32 and the zeroing of `rx_count` are the spec's decisions D2
and D3. -/
def Obligations.ReadLengthStep : Prop :=
  ∀ (c : Byte) (s : State), s.top = .poll → s.fst = .readLength →
    exec (.stepReadLength c) s =
      .next
        (if 32 < c.toNat then { s with pkt := { s.pkt with length := c }, fst := .waitSync1 }
         else if c = 0 then { s with pkt := { s.pkt with length := c }, fst := .readChecksumLow }
         else { s with pkt := { s.pkt with length := c }, rxCount := 0, fst := .readPayload })

/-- 40_framing_rx.md R87, for every index the payload register has. -/
def Obligations.ReadPayloadStep : Prop :=
  ∀ (c : Byte) (s : State), s.top = .poll → s.fst = .readPayload → s.rxCount.toNat < 32 →
    ∃ t, exec (.stepReadPayload c) s = .next t ∧
      t = { s with
        pkt := { s.pkt with payload := t.pkt.payload }
        rxCount := s.rxCount + 1
        fst := if s.rxCount.toNat + 1 = s.pkt.length.toNat then .readChecksumLow else .readPayload } ∧
      ∀ i, i < 32 → t.pkt.byte i = if i = s.rxCount.toNat then c else s.pkt.byte i

/-- 40_framing_rx.md R88. -/
def Obligations.ReadChecksumLowStep : Prop :=
  ∀ (c : Byte) (s : State), s.top = .poll → s.fst = .readChecksumLow →
    ∃ t, exec (.stepReadChecksumLow c) s = .next t ∧
      t = { s with pkt := { s.pkt with cksum := t.pkt.cksum }, fst := .readChecksumHigh } ∧
      t.pkt.cksum.extractLsb' 0 8 = c ∧ t.pkt.cksum.extractLsb' 8 8 = s.pkt.cksum.extractLsb' 8 8

/-- 40_framing_rx.md R89, for a length that the register can carry. That `ck_a`, `ck_b` and `ck_ok` are kept is the
model's choice (log 22). -/
def Obligations.ReadChecksumHighStep : Prop :=
  ∀ (c : Byte) (s : State), s.top = .poll → s.fst = .readChecksumHigh → s.pkt.length.toNat ≤ 32 →
    ∃ t, exec (.stepReadChecksumHigh c) s = .next t ∧
      t.pkt.cksum.extractLsb' 8 8 = c ∧ t.pkt.cksum.extractLsb' 0 8 = s.pkt.cksum.extractLsb' 0 8 ∧
      t.ckA = (ckAcc s.pkt.type s.pkt.length s.pkt.valid).a ∧ t.ckB = (ckAcc s.pkt.type s.pkt.length s.pkt.valid).b ∧
      t.ckOk = decide (t.pkt.cksum = cksum16 s.pkt.type s.pkt.length s.pkt.valid) ∧
      t = { s with
        pkt := { s.pkt with cksum := t.pkt.cksum }, ckA := t.ckA, ckB := t.ckB, ckOk := t.ckOk
        fst := .waitSync1
        top := if t.ckOk then .dispatch else .poll
        env := if t.ckOk then s.env else { s.env with trace := s.env.trace ++ [.diag .checksumFail] } }

/-! The receive queue and whole frames. -/

/-- 40_framing_rx.md R80. That it holds in every state is the spec's decision D16. -/
def Obligations.PushAppendsOrDrops : Prop :=
  ∀ (c : Byte) (s : State),
    exec (.rxqPush c) s = .next (if s.rxq.length < 64 then { s with rxq := s.rxq ++ [c] } else s)

/-- 40_framing_rx.md R81, R82: an empty queue changes nothing; else the oldest byte leaves the queue and takes exactly the
byte-step that `fst` selects, and that step completes where its index is one the payload register has. -/
def Obligations.PopConsumesOneByte : Prop :=
  ∀ s : State, s.top = .poll →
    (s.rxq = [] → exec .rxqPop s = .next s) ∧
    (∀ c rest, s.rxq = c :: rest →
      (s.fst = .readPayload → s.rxCount.toNat < 32) → (s.fst = .readChecksumHigh → s.pkt.length.toNat ≤ 32) →
      ∃ t, exec .rxqPop s = .next t ∧ exec (decodeByte s.fst c) { s with rxq := rest } = .next t ∧ t.rxq = rest)

/-- A frame received while the framer hunts and the queue is empty yields its packet: the received bytes, zeros above
them, and a matching checksum (40_framing_rx.md R90). That one step runs a whole frame is the model's choice (log 14). -/
def Obligations.FrameYieldsItsPacket : Prop :=
  ∀ (ty : Byte) (p : List Byte) (s : State), p.length ≤ 32 → s.top = .poll → s.fst = .waitSync1 → s.rxq = [] →
    ∃ t, exec (.frame ty p) s = .next t ∧
      t = { s with
        top := .dispatch, pkt := t.pkt, rxCount := t.rxCount, ckA := t.ckA, ckB := t.ckB, ckOk := true } ∧
      t.pkt.type = ty ∧ t.pkt.length = BitVec.ofNat 8 p.length ∧ (∀ i, i < 32 → t.pkt.byte i = p.getD i 0) ∧
      t.pkt.cksum = cksum16 ty (BitVec.ofNat 8 p.length) p

/-- A frame that arrives while CORE does not poll only fills the queue, up to 64 bytes (40_framing_rx.md R80, 20_memory.md R52).
That one step runs a whole frame is the model's choice (log 14); that a push is enabled in every state, App, Fault, Flash and
Send among them, is the spec's decision D16. -/
def Obligations.FrameWhileNotPollingOnlyQueues : Prop :=
  ∀ (ty : Byte) (p : List Byte) (s : State), s.top ≠ .poll → s.rxq.length ≤ 64 →
    exec (.frame ty p) s = .next { s with rxq := (s.rxq ++ encode (.frame ty p)).take 64 }

/-- The turn that delivers a whole frame is no new behaviour: it leaves the state that its elementary turns leave, one
push and one step of CORE for each byte (a check of the model's choice, log 14, against 40_framing_rx.md R80, R81). -/
def Obligations.FrameTurnIsItsElementaryTurns : Prop :=
  ∀ (ty : Byte) (p : List Byte) (ts : List Turn) (s : State),
    p.length ≤ 32 → s.top = .poll → s.fst = .waitSync1 → s.rxq = [] →
    let bytes := encode (.frame ty p)
    Sys2Proof.core.run (2 * bytes.length)
        { s with env := { s.env with turns := bytes.flatMap (fun c => [.line c, .core]) ++ ts } } =
      step { s with env := { s.env with turns := .frame ty p :: ts } }

/-- After a failed second sync byte, an over-long length byte, or a wrong checksum with all announced bytes present, a
well-formed frame that follows at once is still received; only the wrong checksum is reported (40_framing_rx.md R94). A
frame that is too short, or whose first sync byte is wrong, is not spoken of. The rejection of an over-long length is the
spec's decision D2; that each byte is followed by one poll is the model's choice of a schedule (log 14). -/
def Obligations.NextFrameSurvivesAMalformedOne : Prop :=
  ∀ (bad : List Byte) (ds : List Event) (ty : Byte) (p : List Byte) (s : State),
    ((∃ x, x ≠ 0xCF ∧ bad = [0xBC, x] ∧ ds = []) ∨
     (∃ t l : Byte, 32 < l.toNat ∧ bad = [0xBC, 0xCF, t, l] ∧ ds = []) ∨
     (∃ (t : Byte) (q : List Byte) (lo hi : Byte), q.length ≤ 32 ∧
        le16 lo hi ≠ cksum16 t (BitVec.ofNat 8 q.length) q ∧
        bad = [0xBC, 0xCF, t, BitVec.ofNat 8 q.length] ++ q ++ [lo, hi] ∧ ds = [.diag .checksumFail])) →
    p.length ≤ 32 → s.top = .poll → s.fst = .waitSync1 → s.rxq = [] →
    ∃ t, receiveBytes (bad ++ encode (.frame ty p)) s = .next t ∧
      t.top = .dispatch ∧ t.fst = .waitSync1 ∧ t.rxq = [] ∧
      t.pkt.type = ty ∧ t.pkt.length = BitVec.ofNat 8 p.length ∧ (∀ i, i < 32 → t.pkt.byte i = p.getD i 0) ∧
      t.env = { s.env with trace := s.env.trace ++ ds }

/-! The checksum. -/

/-- The closed form of 40_framing_rx.md R93, and its consequence (0). -/
def Obligations.ChecksumClosedForm : Prop :=
  ∀ (t : Byte) (p : List Byte), p.length ≤ 32 →
    let l := BitVec.ofNat 8 p.length
    (ckAcc t l p).a.toNat = (t.toNat + p.length + ∑ j ∈ Finset.range p.length, (p.getD j 0).toNat) % 256 ∧
    (ckAcc t l p).b.toNat =
      ((p.length + 2) * t.toNat + (p.length + 1) * p.length +
        ∑ j ∈ Finset.range p.length, (p.length - j) * (p.getD j 0).toNat) % 256 ∧
    ckAcc t l p = ([t, l] ++ p).foldl CkAcc.add { a := 0, b := 0 } ∧
    (cksum16 t l p).toNat = (ckAcc t l p).a.toNat + 256 * (ckAcc t l p).b.toNat

/-- 40_framing_rx.md R93 (1), (2): a change of the type byte alone, or of one payload byte alone, changes the checksum. -/
def Obligations.ChecksumDetectsOneChangedByte : Prop :=
  ∀ (t l : Byte) (p : List Byte),
    (∀ t', t' ≠ t → cksum16 t' l p ≠ cksum16 t l p) ∧
    (∀ i c, i < p.length → p.getD i 0 ≠ c → cksum16 t l (p.set i c) ≠ cksum16 t l p)

/-- 40_framing_rx.md R93 (4), the adjacent case: exchanging two adjacent unequal bytes changes `b` and leaves `a`. -/
def Obligations.ChecksumDetectsAdjacentExchange : Prop :=
  ∀ (t l u v : Byte) (p q : List Byte), u ≠ v →
    (ckAcc t l (p ++ [u, v] ++ q)).a = (ckAcc t l (p ++ [v, u] ++ q)).a ∧
    (ckAcc t l (p ++ [u, v] ++ q)).b ≠ (ckAcc t l (p ++ [v, u] ++ q)).b

/-! The commands. -/

/-- 42_commands.md R113. Where the offsets of the source stand in the payload is the spec's decision D1 (90_conflicts.md C2,
log 18). Entering Send at index 0 is R124, with the registers of decision D15 (10_state.md R21). -/
def Obligations.GetinfoBuildsItsReply : Prop :=
  ∀ (lead : Byte) (extra : List Byte) (s : State), s.top = .dispatch →
    ∃ t, exec (.getinfo lead extra) s = .next t ∧
      t = { s with
        pkt := { s.pkt with length := 24, payload := t.pkt.payload }, replyRequired := true, top := .send, txIdx := 0 } ∧
      ∀ i, i < 32 →
        t.pkt.byte i =
          (([(3, 0x00), (4, 0x04), (5, 0x0A), (6, 0x00), (7, 0x00), (8, 0x04), (9, 0x10), (10, 0x00), (23, 0x10)] :
              List (Nat × Byte)).lookup i).getD (s.pkt.byte i)

/-- 42_commands.md R114: the reply is built and nothing is sent. Where the offsets of the source stand in the payload is the
spec's decision D1 (90_conflicts.md C2, log 18). Going to Poll is R124. -/
def Obligations.GetmappingBuildsAndSendsNothing : Prop :=
  ∀ (lead : Byte) (extra : List Byte) (s : State), s.top = .dispatch →
    ∃ t, exec (.getmapping lead extra) s = .next t ∧
      t = { s with
        pkt := { s.pkt with length := 9, payload := t.pkt.payload }, replyRequired := false, top := .poll } ∧
      ∀ i, i < 32 →
        t.pkt.byte i =
          (([(3, 4), (4, 16), (5, 1), (6, 64), (7, 7), (8, 128)] : List (Nat × Byte)).lookup i).getD (s.pkt.byte i)

/-- 42_commands.md R115, R116, a transfer that passes the bounds check: the data lie at `[page][address ..]`, every other
byte of the staging store and every other field is unchanged. The exact bounds are the spec's decisions D6, D7. -/
def Obligations.LoadbufferStoresItsData : Prop :=
  ∀ (lead : Byte) (len : Nat) (page address : Half) (data : List Byte) (s : State),
    s.top = .dispatch → 7 ≤ len → data.length = len - 7 → page.toNat ≤ 9 → address.toNat + (len - 7) ≤ 1024 →
    ∃ t, exec (.loadbuffer lead len page address data) s = .next t ∧
      t = { s with stage := t.stage, replyRequired := false, top := .poll } ∧
      ∀ pg a : Nat,
        t.stageByte pg a =
          if pg = page.toNat ∧ address.toNat ≤ a ∧ a < address.toNat + data.length then data[a - address.toNat]?
          else s.stageByte pg a

/-- 42_commands.md R115, R116, a transfer that fails the bounds check: one diagnostic, no byte written, no reply. The
exact bounds and the single diagnostic are the spec's decisions D6, D7, D21. -/
def Obligations.LoadbufferOutOfBoundsWritesNothing : Prop :=
  ∀ (lead : Byte) (len : Nat) (page address : Half) (data : List Byte) (s : State),
    s.top = .dispatch → (len < 7 ∨ 9 < page.toNat ∨ 1024 < address.toNat + (len - 7)) →
    exec (.loadbuffer lead len page address data) s =
      .next { s with
        replyRequired := false, top := .poll
        env := { s.env with trace := s.env.trace ++ [.diag .boundsViolation] } }

/-- 42_commands.md R117, R121, R122, R110: no effect, no reply, no diagnostic. -/
def Obligations.IgnoredPacketsHaveNoEffect : Prop :=
  ∀ (i : Instr) (s : State),
    ((∃ lead e, i = .readbuffer lead e) ∨ (∃ lead e, i = .readflash lead e) ∨
      (∃ lead op e, i = .defaultArm lead op e) ∨ (∃ p, i = .ignored p)) →
    s.top = .dispatch → exec i s = .next { s with replyRequired := false, top := .poll }

/-- 42_commands.md R120. The position and values of the two status bytes are the spec's decisions D1 and D12 (log 18).
Entering Send at index 0 is R124, with the registers of decision D15. -/
def Obligations.FlashstatusReportsSuccess : Prop :=
  ∀ (lead : Byte) (extra : List Byte) (s : State), s.top = .dispatch →
    ∃ t, exec (.flashstatus lead extra) s = .next t ∧
      t = { s with
        pkt := { s.pkt with length := 5, payload := t.pkt.payload }, replyRequired := true, top := .send, txIdx := 0 } ∧
      ∀ i, i < 32 → t.pkt.byte i = (([(3, 0x01), (4, 0x00)] : List (Nat × Byte)).lookup i).getD (s.pkt.byte i)

/-- 42_commands.md R118: dispatch loads the sequencer's registers; no controller operation is made in that step. -/
def Obligations.WriteflashStarts : Prop :=
  ∀ (lead : Byte) (len : Nat) (b f n : Half) (extra : List Byte) (s : State), s.top = .dispatch →
    exec (.writeflash lead len b f n extra) s =
      .next { s with top := .flash, wfBpage := b, wfFpage := f, wfN := n, wfI := 0, wfPhase := .head }

/-- 42_commands.md R118, R119: when the page loop has run to its end the status bytes are set and a reply is sent. The
step at which the loop's end is seen is the model's choice (log 8); the position and
values of the status bytes are the spec's decisions D1 and D12 (log 18). -/
def Obligations.WriteflashEndsWithTheStatusReply : Prop :=
  ∀ (lead : Byte) (len : Nat) (b f n : Half) (extra : List Byte) (s : State),
    s.top = .flash → s.wfPhase = .head → s.wfN.toNat ≤ s.wfI.toNat →
    ∃ t, exec (.writeflash lead len b f n extra) s = .next t ∧
      t = { s with
        pkt := { s.pkt with length := 5, payload := t.pkt.payload }, replyRequired := true, top := .send, txIdx := 0 } ∧
      ∀ i, i < 32 → t.pkt.byte i = (([(3, 0x01), (4, 0x00)] : List (Nat × Byte)).lookup i).getD (s.pkt.byte i)

/-- 42_commands.md R126: at loop index 10 the block halts with one diagnostic and no controller operation (the spec's
decision D8). An index above 10, which no run reaches, halts in the same way. -/
def Obligations.TooManyPagesHaltTheBlock : Prop :=
  ∀ (lead : Byte) (len : Nat) (b f n : Half) (extra : List Byte) (s : State),
    s.top = .flash → s.wfPhase = .head → s.wfI.toNat < s.wfN.toNat → 10 ≤ s.wfI.toNat →
    exec (.writeflash lead len b f n extra) s =
      .next { s with
        top := .fault, env := { s.env with trace := s.env.trace ++ [.diag .stageIndexFault] } }

/-- 42_commands.md R127: no command changes the type byte, the lead byte, the marker or the opcode byte, so a reply
carries its request's. -/
def Obligations.ReplyEchoesTypeAndLead : Prop :=
  ∀ s t : State, (s.top = .dispatch ∨ s.top = .flash) → coreStep s = .next t →
    t.pkt.type = s.pkt.type ∧ ∀ i, i < 3 → t.pkt.byte i = s.pkt.byte i

/-- 41_framing_tx.md R100: a frame is begun only for GETINFO, for FLASHSTATUS, and at the end of a WRITEFLASH. -/
def Obligations.OnlyThreeCommandsReply : Prop :=
  ∀ s t : State, coreStep s = .next t → t.top = .send → s.top ≠ .send →
    (s.top = .dispatch ∧ ∃ lead e, decodePacket s.pkt = .getinfo lead e ∨ decodePacket s.pkt = .flashstatus lead e) ∨
    (s.top = .flash ∧ s.wfPhase = .head ∧ s.wfN.toNat ≤ s.wfI.toNat)

/-! The flash sequencer. -/

/-- 43_flash_sequencer.md R142: exact match against the sector map, and the flash pages that match
(20_memory.md R46). The index of a sector and the base of the pages are the spec's decisions D25, D9. -/
def Obligations.SectorLookupIsExactMatch : Prop :=
  (∀ (addr : Word) (i : Nat), sectorIndex addr = some i ↔ sectorMap[i]? = some addr) ∧
  (∀ page i : Nat, page < 65546 →
    (sectorIndex (flashPageAddr page) = some i ↔
      [0, 16, 32, 48, 64, 128, 256, 384, 512, 640, 768, 896][i]? = some page))

/-- 42_commands.md R119: the lookup decides whether the page's sector is erased first. That the lookup is a step of its own,
at the phase `head`, and that the sector is latched in `wfS` are the model's choices (logs 8 and 9). -/
def Obligations.SectorLookupChoosesEraseOrProgram : Prop :=
  ∀ (addr : Word) (s : State), s.top = .flash → s.wfPhase = .head →
    (∀ i, sectorIndex addr = some i →
      exec (.sectorLookup addr) s =
        .next { s with wfAddr := addr, wfS := BitVec.ofNat 4 i, wfPhase := .eWait1 }) ∧
    (sectorIndex addr = none →
      exec (.sectorLookup addr) s = .next { s with wfAddr := addr, wfPhase := .pWait1 })

/-- 43_flash_sequencer.md R143, operation by operation. The configuration write leaves the environment that Env.applyConfig
gives: the reference array's answer (log 6), which no key write changes (log 31). The record's unnamed field is 0 by the
spec's decision D26. -/
def Obligations.EraseOperationByOperation : Prop :=
  ∀ (sec : BitVec 4) (s : State), s.top = .flash →
    (s.wfPhase = .eWait1 →
      exec (.erase sec) s =
        .next { s with
          wfPhase := if s.env.fcBusy then .eWait1 else .eKey1
          env := { s.env with trace := s.env.trace ++ [.fc (.isBusy s.env.fcBusy)] } }) ∧
    (s.wfPhase = .eKey1 →
      exec (.erase sec) s =
        .next { s with wfPhase := .eKey2, env := { s.env with trace := s.env.trace ++ [.fc .key1] } }) ∧
    (s.wfPhase = .eKey2 →
      exec (.erase sec) s =
        .next { s with wfPhase := .eCfg, env := { s.env with trace := s.env.trace ++ [.fc .key2] } }) ∧
    (s.wfPhase = .eCfg →
      let c : FcConfig := { width := 32, sector := sec, eraseMode := true, start := true, programEnable := false }
      exec (.erase sec) s =
        .next { s with
          wfPhase := .eWait2
          env := Env.applyConfig { s.env with trace := s.env.trace ++ [.fc (.configure c)] } c }) ∧
    (s.wfPhase = .eWait2 →
      exec (.erase sec) s =
        .next { s with
          wfPhase := if s.env.fcBusy then .eWait2 else .pWait1
          env := { s.env with trace := s.env.trace ++ [.fc (.isBusy s.env.fcBusy)] } })

/-- 43_flash_sequencer.md R144, operation by operation. The configuration write changes no byte of the array; a word write
leaves the environment that Env.applyWrite gives for the word's address and value: the reference array's answer (logs 6, 7),
which no key write changes (log 31). The record's unnamed fields are 0 by the spec's decision D26. -/
def Obligations.ProgramOperationByOperation : Prop :=
  ∀ (addr : Word) (page : BitVec 4) (s : State), s.top = .flash →
    (s.wfPhase = .pWait1 →
      exec (.program addr page) s =
        .next { s with
          wfPhase := if s.env.fcBusy then .pWait1 else .pKey1
          env := { s.env with trace := s.env.trace ++ [.fc (.isBusy s.env.fcBusy)] } }) ∧
    (s.wfPhase = .pKey1 →
      exec (.program addr page) s =
        .next { s with wfPhase := .pKey2, env := { s.env with trace := s.env.trace ++ [.fc .key1] } }) ∧
    (s.wfPhase = .pKey2 →
      exec (.program addr page) s =
        .next { s with wfPhase := .pCfg, env := { s.env with trace := s.env.trace ++ [.fc .key2] } }) ∧
    (s.wfPhase = .pCfg →
      let c : FcConfig := { width := 32, sector := 0, eraseMode := false, start := false, programEnable := true }
      exec (.program addr page) s =
        .next { s with
          wfPhase := .pWord, wfW := 0
          env := { s.env with trace := s.env.trace ++ [.fc (.configure c)], fcConfig := some c } }) ∧
    (s.wfPhase = .pWord → page.toNat ≤ 9 →
      ∃ b0 b1 b2 b3,
        s.stageByte page.toNat (4 * s.wfW.toNat) = some b0 ∧ s.stageByte page.toNat (4 * s.wfW.toNat + 1) = some b1 ∧
        s.stageByte page.toNat (4 * s.wfW.toNat + 2) = some b2 ∧ s.stageByte page.toNat (4 * s.wfW.toNat + 3) = some b3 ∧
        let a := addr + BitVec.ofNat 32 (4 * s.wfW.toNat)
        let v := le32 b0 b1 b2 b3
        exec (.program addr page) s =
          .next { s with
            wfPhase := .pWaitW
            env := Env.applyWrite { s.env with trace := s.env.trace ++ [.fc (.writeWord a v)] } a.toNat v }) ∧
    (s.wfPhase = .pWaitW →
      exec (.program addr page) s =
        .next { s with
          wfPhase := if s.env.fcBusy then .pWaitW else if s.wfW = 255 then .head else .pWord
          wfW := if s.env.fcBusy ∨ s.wfW = 255 then s.wfW else s.wfW + 1
          wfI := if s.env.fcBusy = false ∧ s.wfW = 255 then s.wfI + 1 else s.wfI
          env := { s.env with trace := s.env.trace ++ [.fc (.isBusy s.env.fcBusy)] } })

/-- 42_commands.md R123: in Flash, a step of an erase or of a program completes, makes exactly one controller operation and
changes nothing but the sequencer's position and the environment. That one operation is one step is the spec's decision
D15. -/
def Obligations.SequencerStepMakesOneOperation : Prop :=
  ∀ (sec : BitVec 4) (addr : Word) (page : BitVec 4) (s : State), s.top = .flash →
    ((s.wfPhase = .eWait1 ∨ s.wfPhase = .eKey1 ∨ s.wfPhase = .eKey2 ∨ s.wfPhase = .eCfg ∨ s.wfPhase = .eWait2) →
      ∃ t op, exec (.erase sec) s = .next t ∧ t = { s with wfPhase := t.wfPhase, env := t.env } ∧
        t.env.trace = s.env.trace ++ [.fc op] ∧ t.env.turns = s.env.turns ∧ t.env.fcBusy = s.env.fcBusy) ∧
    ((s.wfPhase = .pWait1 ∨ s.wfPhase = .pKey1 ∨ s.wfPhase = .pKey2 ∨ s.wfPhase = .pCfg ∨ s.wfPhase = .pWord ∨
        s.wfPhase = .pWaitW) → page.toNat ≤ 9 →
      ∃ t op, exec (.program addr page) s = .next t ∧
        t = { s with wfPhase := t.wfPhase, wfW := t.wfW, wfI := t.wfI, env := t.env } ∧
        t.env.trace = s.env.trace ++ [.fc op] ∧ t.env.turns = s.env.turns ∧ t.env.fcBusy = s.env.fcBusy)

/-- 43_flash_sequencer.md R147: a controller that stays busy holds CORE in its wait for ever; nothing is sent, popped or
reported, and only the record of polls grows. -/
def Obligations.BusyControllerHangsTheBlock : Prop :=
  ∀ (k : Nat) (s : State), s.top = .flash → s.env.fcBusy = true → s.env.turns = [] →
    (s.wfPhase = .eWait1 ∨ s.wfPhase = .eWait2 ∨ s.wfPhase = .pWait1 ∨ s.wfPhase = .pWaitW) →
    Sys2Proof.core.run k s =
      .next { s with
        env := { s.env with trace := s.env.trace ++ List.replicate k (.fc (.isBusy true)) } }

/-- 43_flash_sequencer.md R148 on a controller that is idle at every poll: a WRITEFLASH of at most ten pages makes
exactly these controller operations, sends nothing meanwhile, and then its reply is ready to be sent. The position and
values of the status bytes are the spec's decisions D1 and D12 (log 18). -/
def Obligations.WriteflashOperationTrace : Prop :=
  ∀ (s : State) (lead : Byte) (len : Nat) (b f n : Half) (extra : List Byte),
    s.top = .dispatch → decodePacket s.pkt = .writeflash lead len b f n extra → n.toNat ≤ 10 →
    s.env.fcBusy = false → s.env.turns = [] →
    ∃ k t, Sys2Proof.core.run k s = .next t ∧ t.top = .send ∧ t.replyRequired = true ∧ t.txIdx = 0 ∧
      t.pkt.length = 5 ∧ t.pkt.byte 3 = 0x01 ∧ t.pkt.byte 4 = 0x00 ∧
      t.stage = s.stage ∧ t.rxq = s.rxq ∧ t.fst = s.fst ∧
      t.env.trace =
        s.env.trace ++
          (writeFlashOps f.toNat n.toNat (fun i w => (s.stageWord i w).getD 0)).map Event.fc

/-- 42_commands.md R126 and 43_flash_sequencer.md R148 for more than ten pages, on a controller that is idle at every
poll: ten pages are programmed, then the block halts with one diagnostic and no reply (the spec's decision D8). -/
def Obligations.ElevenPagesProgramTenThenHalt : Prop :=
  ∀ (s : State) (lead : Byte) (len : Nat) (b f n : Half) (extra : List Byte),
    s.top = .dispatch → decodePacket s.pkt = .writeflash lead len b f n extra → 10 < n.toNat →
    s.env.fcBusy = false → s.env.turns = [] →
    ∃ k t, Sys2Proof.core.run k s = .next t ∧ t.top = .fault ∧ t.stage = s.stage ∧ t.pkt = s.pkt ∧
      t.env.trace =
        s.env.trace ++
          (writeFlashOps f.toNat 10 (fun i w => (s.stageWord i w).getD 0)).map Event.fc ++ [.diag .stageIndexFault]

/-- 43_flash_sequencer.md R151 (a): the reference array's answer to ERASE_CFG(s) (the spec's decision D14, log 6). -/
def Obligations.EraseSetsTheSectorToErased : Prop :=
  ∀ (e : Env) (s : BitVec 4) (a : Nat), s.toNat < 12 →
    (e.applyConfig (eraseCfg s)).flash.read flashDefault a =
      if (sectorMap.getD s.toNat 0).toNat ≤ a ∧
          a < (if s.toNat = 11 then 0x08100000 else (sectorMap.getD (s.toNat + 1) 0).toNat) then 0xFF
      else e.flash.read flashDefault a

/-- 43_flash_sequencer.md R151 (b): a word write to an erased word inside the device, after PROGRAM_CFG, makes the word
read `v`, and no free value is drawn. Any other write makes the word read the next free value, about which nothing is said
(R151 (c); log 7). No write changes a byte outside its word. The reference array is the spec's decision D14 (log 6). -/
def Obligations.WordWriteChangesOnlyItsWord : Prop :=
  ∀ (e : Env) (a : Nat) (v : Word),
    let programmed : Prop :=
      e.fcConfig = some programCfg ∧ 0x08000000 ≤ a ∧ a + 3 ≤ 0x080FFFFF ∧ e.flash.readWord flashDefault a = 0xFFFFFFFF
    (programmed →
      (e.applyWrite a v).flash.readWord flashDefault a = v ∧ (e.applyWrite a v).freeCount = e.freeCount) ∧
    (¬ programmed →
      (e.applyWrite a v).flash.readWord flashDefault a = Config.freeWord e.freeCount ∧
      (e.applyWrite a v).freeCount = e.freeCount + 1) ∧
    (∀ x, x < a ∨ a + 4 ≤ x → (e.applyWrite a v).flash.read flashDefault x = e.flash.read flashDefault x)

/-- 43_flash_sequencer.md R140: only CORE, and only while `top = Flash`, changes the flash array or operates the
controller. -/
def Obligations.FlashIsTouchedOnlyInFlashState : Prop :=
  ∀ s t : State, step s = .next t → s.top ≠ .flash →
    t.env.flash = s.env.flash ∧ t.env.fcConfig = s.env.fcConfig ∧ t.fcOps = s.fcOps

/-- A byte of the flash array changes only by a step of CORE in Flash: at the configuration write of an erase a byte of
the latched sector becomes FF, and at a word write a byte of the word at `wf_addr + 4*wf_w` changes (43_flash_sequencer.md
R143, R144, R151). The reference array is the spec's decision D14 (log 6); `wfS` is the model's latch (log 9). -/
def Obligations.FlashByteChangesOnlyWhereTheOperationPoints : Prop :=
  ∀ (s t : State) (a : Nat), step s = .next t →
    t.env.flash.read flashDefault a ≠ s.env.flash.read flashDefault a →
    s.top = .flash ∧ (s.env.turns = [] ∨ s.env.turns.head? = some .core) ∧
    ((s.wfPhase = .eCfg ∧ s.wfS.toNat < 12 ∧ (sectorMap.getD s.wfS.toNat 0).toNat ≤ a ∧
        a < (if s.wfS.toNat = 11 then 0x08100000 else (sectorMap.getD (s.wfS.toNat + 1) 0).toNat) ∧
        t.env.flash.read flashDefault a = 0xFF) ∨
      (s.wfPhase = .pWord ∧
        (s.wfAddr + BitVec.ofNat 32 (4 * s.wfW.toNat)).toNat ≤ a ∧
        a < (s.wfAddr + BitVec.ofNat 32 (4 * s.wfW.toNat)).toNat + 4))

/-- A WRITEFLASH as a whole (42_commands.md R118, R119, with 43_flash_sequencer.md R151): on a controller that is idle at
every poll, a WRITEFLASH of at most ten pages inside the device, whose first page starts a sector or whose pages all read
erased, leaves in flash page `f + i` the bytes of staging page `i`, and then its reply is ready to be sent. The reference
array is the spec's decision D14 (log 6). -/
def Obligations.WriteflashCommitsTheStagedPages : Prop :=
  ∀ (s : State) (lead : Byte) (len : Nat) (b f n : Half) (extra : List Byte),
    s.top = .dispatch → decodePacket s.pkt = .writeflash lead len b f n extra →
    n.toNat ≤ 10 → f.toNat + n.toNat ≤ 1024 → s.env.fcBusy = false → s.env.turns = [] →
    (sectorIndex (flashPageAddr f.toNat) ≠ none ∨
      ∀ a, 0x08000000 + 1024 * f.toNat ≤ a → a < 0x08000000 + 1024 * (f.toNat + n.toNat) →
        s.env.flash.read flashDefault a = 0xFF) →
    ∃ k t, Sys2Proof.core.run k s = .next t ∧ t.top = .send ∧
      ∀ i a, i < n.toNat → a < 1024 →
        some (t.env.flash.read flashDefault (0x08000000 + 1024 * (f.toNat + i) + a)) = s.stageByte i a

/-! The transmit path. -/

/-- 41_framing_tx.md R101, R102: one `SINK.put`. Before the first byte the checksum is computed (R103). A byte that is
not accepted leaves CORE where it is. That acceptance is one step with the offer (log 10), that the step which offers the
first byte also sets the checksum (log 27), and that `ck_a`, `ck_b` are kept (log 22) are the model's choices. -/
def Obligations.SendPutsTheNextByte : Prop :=
  ∀ s : State, s.top = .send → s.pkt.length.toNat ≤ 32 → s.txIdx.toNat ≤ s.pkt.length.toNat + 5 →
    ∃ t, exec .send s = .next t ∧
      (s.txIdx = 0 →
        t.pkt.cksum = cksum16 s.pkt.type s.pkt.length s.pkt.valid ∧
        t.ckA = (ckAcc s.pkt.type s.pkt.length s.pkt.valid).a ∧ t.ckB = (ckAcc s.pkt.type s.pkt.length s.pkt.valid).b) ∧
      (s.txIdx ≠ 0 → t.pkt.cksum = s.pkt.cksum ∧ t.ckA = s.ckA ∧ t.ckB = s.ckB) ∧
      (s.env.sinkReady = false →
        t = { s with pkt := { s.pkt with cksum := t.pkt.cksum }, ckA := t.ckA, ckB := t.ckB }) ∧
      (s.env.sinkReady = true →
        ∃ c,
          ([0xBC, 0xCF, s.pkt.type, s.pkt.length] ++ s.pkt.valid ++
            [t.pkt.cksum.extractLsb' 0 8, t.pkt.cksum.extractLsb' 8 8])[s.txIdx.toNat]? = some c ∧
          t = { s with
            pkt := { s.pkt with cksum := t.pkt.cksum }, ckA := t.ckA, ckB := t.ckB
            top := if s.txIdx.toNat = s.pkt.length.toNat + 5 then .poll else .send
            txIdx := if s.txIdx.toNat = s.pkt.length.toNat + 5 then s.txIdx else s.txIdx + 1
            env := { s.env with trace := s.env.trace ++ [.sinkPut c] } })

/-- 41_framing_tx.md R101 as a whole, with a sink that accepts every byte: the frame of the packet register goes out
byte by byte and CORE polls again. That acceptance is one step with the offer is the model's choice (log 10). -/
def Obligations.SendEmitsTheWholeFrame : Prop :=
  ∀ s : State, s.top = .send → s.txIdx = 0 → s.pkt.length.toNat ≤ 32 → s.env.sinkReady = true → s.env.turns = [] →
    ∃ t, Sys2Proof.core.run (s.pkt.length.toNat + 6) s = .next t ∧ t.top = .poll ∧
      t.env.trace = s.env.trace ++ (encode (.frame s.pkt.type s.pkt.valid)).map Event.sinkPut ∧
      t.stage = s.stage ∧ t.rxq = s.rxq ∧ t.fst = s.fst

/-! The mode decision, reset, and the machine as a whole. -/

/-- 70_reset_and_hazards.md R181. The address of the word is the spec's decision D10; the pin's level is the open parameter
of decision D18. -/
def Obligations.BootDecidesTheMode : Prop :=
  ∀ s : State, s.top = .boot →
    let stay := decide (s.env.bootPin = Config.bootPinStayLevel)
    let word := le32 (s.env.flash.read flashDefault 0x08004000) (s.env.flash.read flashDefault 0x08004001)
      (s.env.flash.read flashDefault 0x08004002) (s.env.flash.read flashDefault 0x08004003)
    exec .boot s =
      .next { s with
        stayReq := stay, appWord := word
        top := if stay = false ∧ word ≠ 0xFFFFFFFF then .app else .poll }

/-- 70_reset_and_hazards.md R182 and 42_commands.md R126: in App and in Fault every step but the hardware reset leaves
all of the block but the receive queue as it is, takes no byte out of the queue, and sends, programs and reports nothing. That CORE's turn leaves the
state unchanged there, and does not stop the machine, is the model's choice (log 13). -/
def Obligations.OnlyResetLeavesAppAndFault : Prop :=
  ∀ s : State, (s.top = .app ∨ s.top = .fault) → s.env.turns.head? ≠ some .reset →
    ∃ t, step s = .next t ∧
      t = { s with
        rxq := t.rxq
        env := { s.env with
          bootPin := t.env.bootPin, fcBusy := t.env.fcBusy, sinkReady := t.env.sinkReady, turns := t.env.turns } } ∧
      ∃ more, t.rxq = s.rxq ++ more

/-- 10_state.md R27: the values that the spec gives. Those of `top`, `pkt`, `rx_count` and `RXQ` are its decisions D15, D4,
D3, D5. -/
def Obligations.ResetLeavesTheSpecifiedValues : Prop :=
  State.reset.fst = .waitSync1 ∧ State.reset.top = .boot ∧
  State.reset.pkt.type = 0 ∧ State.reset.pkt.length = 0 ∧ State.reset.pkt.cksum = 0 ∧
  (∀ i, i < 32 → State.reset.pkt.byte i = 0) ∧
  State.reset.rxCount = 0 ∧ State.reset.rxq = [] ∧
  (∀ page a : Nat, page ≤ 9 → a ≤ 1023 → State.reset.stageByte page a = some 0x00)

/-- 70_reset_and_hazards.md R180: in every state the hardware reset returns the block to its reset state; the flash array
keeps its content (the spec's decision D23). The values of the fields that R27 leaves unspecified are the model's choice
(log 23). -/
def Obligations.HardwareResetKeepsTheFlash : Prop :=
  ∀ (s : State) (ts : List Turn), s.env.turns = .reset :: ts →
    ∃ t, step s = .next t ∧ t = { State.reset with env := { s.env with turns := ts } } ∧
      ∀ a, t.env.flash.read flashDefault a = s.env.flash.read flashDefault a

/-- 60_exceptions.md R170: the receive interrupt's whole action is one push. That it is never masked is the spec's decision
D16; that it comes as a turn is the model's choice (log 1). -/
def Obligations.ReceiveInterruptTouchesOnlyTheQueue : Prop :=
  ∀ (s : State) (c : Byte) (ts : List Turn), s.env.turns = .line c :: ts →
    step s =
      .next { s with
        rxq := if s.rxq.length < 64 then s.rxq ++ [c] else s.rxq, env := { s.env with turns := ts } }

/-- 20_memory.md R52: while a packet is dispatched, programmed or answered no byte is popped and no framer step is
taken: the queue only grows at its end, and the framer's registers stand still. -/
def Obligations.OnePacketAtATime : Prop :=
  ∀ s t : State, (s.top = .dispatch ∨ s.top = .flash ∨ s.top = .send) → s.env.turns.head? ≠ some .reset →
    step s = .next t → t.fst = s.fst ∧ t.rxCount = s.rxCount ∧ ∃ more, t.rxq = s.rxq ++ more

/-- 10_state.md R18: apart from the reset, only a dispatched LOADBUFFER changes the staging store. -/
def Obligations.StageIsWrittenOnlyByLoadbuffer : Prop :=
  ∀ s t : State, s.env.turns.head? ≠ some .reset → step s = .next t → t.stage ≠ s.stage →
    s.top = .dispatch ∧ (s.env.turns = [] ∨ s.env.turns.head? = some .core) ∧
      ∃ lead len page address data, decodePacket s.pkt = .loadbuffer lead len page address data

/-- What has been observed stays observed: no step takes an output back (60_exceptions.md R168: outputs are in program
order). The record is the model's own (log 2). -/
def Obligations.OutputsAreNeverTakenBack : Prop :=
  ∀ s t : State, step s = .next t → ∃ more, t.env.trace = s.env.trace ++ more

/-- The invariant of the machine (Safety.lean, State.Inv) is kept by every step of every agent from every state. -/
def Obligations.EveryStepKeepsTheInvariant : Prop :=
  ∀ s t : State, s.Inv → step s = .next t → t.Inv

/-- The state after reset meets the invariant. -/
def Obligations.ResetMeetsTheInvariant : Prop := State.reset.Inv

/-- From a state that meets the invariant every step completes: no fault and no refusal is reachable
(20_memory.md R41, R42: every index is in range). -/
def Obligations.EveryStepCompletes : Prop :=
  ∀ s : State, s.Inv → ∃ t, step s = .next t
end

