-- ==== Sys2Proof/Laws/Packet.lean ====
section
/-! SUPPORT. The small lemmas of the packet register, of byte order, and of the packet that a frame yields. -/

namespace Sys2Proof

/-! Byte order. -/

theorem le16_toNat (a b : Byte) : (le16 a b).toNat = a.toNat + 256 * b.toNat := by
  have ha := a.isLt
  have hb := b.isLt
  simp only [le16, BitVec.toNat_ofNat]
  omega

theorem lo8_toNat (v : Half) : (lo8 v).toNat = v.toNat % 256 := by
  simp [lo8, BitVec.extractLsb'_toNat]

theorem hi8_toNat (v : Half) : (hi8 v).toNat = v.toNat / 256 := by
  have := v.isLt
  simp only [hi8, BitVec.extractLsb'_toNat, Nat.shiftRight_eq_div_pow]
  omega

@[simp] theorem lo8_le16 (a b : Byte) : lo8 (le16 a b) = a := by
  have := a.isLt
  apply BitVec.eq_of_toNat_eq
  rw [lo8_toNat, le16_toNat]
  omega

@[simp] theorem hi8_le16 (a b : Byte) : hi8 (le16 a b) = b := by
  have := a.isLt
  apply BitVec.eq_of_toNat_eq
  rw [hi8_toNat, le16_toNat]
  omega

@[simp] theorem le16_lo8_hi8 (v : Half) : le16 (lo8 v) (hi8 v) = v := by
  apply BitVec.eq_of_toNat_eq
  rw [le16_toNat, lo8_toNat, hi8_toNat]
  omega

theorem le32_toNat (a b c d : Byte) :
    (le32 a b c d).toNat = a.toNat + 2 ^ 8 * b.toNat + 2 ^ 16 * c.toNat + 2 ^ 24 * d.toNat := by
  have ha := a.isLt
  have hb := b.isLt
  have hc := c.isLt
  have hd := d.isLt
  simp only [le32, BitVec.toNat_ofNat]
  omega

/-- The bytes of a word make it up again. -/
theorem le32_wordBytes (v : Word) :
    le32 (v.extractLsb' 0 8) (v.extractLsb' 8 8) (v.extractLsb' 16 8) (v.extractLsb' 24 8) = v := by
  have := v.isLt
  apply BitVec.eq_of_toNat_eq
  rw [le32_toNat]
  simp only [BitVec.extractLsb'_toNat, Nat.shiftRight_eq_div_pow]
  omega

/-- Two halves agree exactly when their bytes do. -/
theorem le16_inj {a b a' b' : Byte} : le16 a b = le16 a' b' ↔ a = a' ∧ b = b' := by
  constructor
  · intro h
    exact ⟨by simpa using congrArg lo8 h, by simpa using congrArg hi8 h⟩
  · rintro ⟨rfl, rfl⟩; rfl

/-! Packet bytes. -/

@[simp] theorem Packet.put_type (p : Packet) (i : Nat) (v : Byte) : (p.put i v).type = p.type := rfl
@[simp] theorem Packet.put_length (p : Packet) (i : Nat) (v : Byte) : (p.put i v).length = p.length := rfl
@[simp] theorem Packet.put_cksum (p : Packet) (i : Nat) (v : Byte) : (p.put i v).cksum = p.cksum := rfl

/-- Reading a byte after writing one. -/
theorem Packet.byte_put (p : Packet) (i j : Nat) (v : Byte) (h : j < 32) :
    (p.put i v).byte j = if i = j then v else p.byte j := by
  simp [Packet.byte, Packet.put, h, Vector.getElem_setIfInBounds]

@[simp] theorem Packet.putAll_type (p : Packet) (i : Nat) (bs : List Byte) : (p.putAll i bs).type = p.type := by
  induction bs generalizing p i with
  | nil => rfl
  | cons b bs ih => simp [Packet.putAll, ih]

@[simp] theorem Packet.putAll_length (p : Packet) (i : Nat) (bs : List Byte) :
    (p.putAll i bs).length = p.length := by
  induction bs generalizing p i with
  | nil => rfl
  | cons b bs ih => simp [Packet.putAll, ih]

@[simp] theorem Packet.putAll_cksum (p : Packet) (i : Nat) (bs : List Byte) :
    (p.putAll i bs).cksum = p.cksum := by
  induction bs generalizing p i with
  | nil => rfl
  | cons b bs ih => simp [Packet.putAll, ih]

/-- Reading a byte after writing consecutive ones. -/
theorem Packet.byte_putAll (p : Packet) (i j : Nat) (bs : List Byte) (h : j < 32) :
    (p.putAll i bs).byte j = if i ≤ j ∧ j < i + bs.length then bs.getD (j - i) 0 else p.byte j := by
  induction bs generalizing p i with
  | nil => simp [Packet.putAll]
  | cons b bs ih =>
    rw [Packet.putAll, ih, Packet.byte_put _ _ _ _ h]
    by_cases h0 : i = j
    · subst h0; simp
    · by_cases h1 : i + 1 ≤ j ∧ j < i + 1 + bs.length
      · have h2 : i ≤ j ∧ j < i + (b :: bs).length := by simp; omega
        rw [if_pos h1, if_pos h2]
        have h3 : j - i = (j - (i + 1)) + 1 := by omega
        simp [h3]
      · have h2 : ¬ (i ≤ j ∧ j < i + (b :: bs).length) := by simp; omega
        rw [if_neg h1, if_neg h2, if_neg h0]

@[simp] theorem Packet.putCmd_type (p : Packet) (k : Nat) (bs : List Byte) : (p.putCmd k bs).type = p.type := by
  simp [Packet.putCmd]

@[simp] theorem Packet.putCmd_length (p : Packet) (k : Nat) (bs : List Byte) :
    (p.putCmd k bs).length = p.length := by
  simp [Packet.putCmd]

@[simp] theorem Packet.putCmd_cksum (p : Packet) (k : Nat) (bs : List Byte) :
    (p.putCmd k bs).cksum = p.cksum := by
  simp [Packet.putCmd]

/-- Reading a byte after writing command bytes from `cmd[k]` up. -/
theorem Packet.byte_putCmd (p : Packet) (k j : Nat) (bs : List Byte) (h : j < 32) :
    (p.putCmd k bs).byte j = if 2 + k ≤ j ∧ j < 2 + k + bs.length then bs.getD (j - (2 + k)) 0 else p.byte j :=
  Packet.byte_putAll p (2 + k) j bs h

/-- A byte depends on the payload alone. -/
theorem Packet.byte_congr {p q : Packet} (h : p.payload = q.payload) (i : Nat) : p.byte i = q.byte i := by
  simp [Packet.byte, h]

/-- A packet with another length byte. -/
theorem Packet.byte_withLength (p : Packet) (l : Byte) (i : Nat) :
    Packet.byte { p with length := l } i = p.byte i := Packet.byte_congr rfl i

/-- The valid bytes are as many as the length says, up to 32. -/
theorem Packet.valid_length (p : Packet) : p.valid.length = min p.length.toNat 32 := by
  simp [Packet.valid]

theorem Packet.valid_getElem? (p : Packet) (i : Nat) (h : i < p.length.toNat) (h32 : i < 32) :
    p.valid[i]? = some (p.byte i) := by
  simp [Packet.valid, Packet.byte, h, h32]

/-- A padded payload reads as its bytes, with zeros above them. -/
theorem byte_paddedPayload (t l : Byte) (k : Half) (bytes : List Byte) (i : Nat) (h : i < 32) :
    Packet.byte { type := t, length := l, payload := paddedPayload bytes, cksum := k } i = bytes.getD i 0 := by
  have hlen : i < ((bytes ++ List.replicate 32 0).take 32).length := by simp [h]
  simp only [Packet.byte, paddedPayload, Vector.getElem?_mk, List.getElem?_toArray]
  rw [List.getElem?_eq_getElem hlen, Option.getD_some, List.getElem_take]
  by_cases hb : i < bytes.length
  · simp [List.getElem_append_left hb, List.getD_eq_getElem?_getD, hb]
  · rw [List.getElem_append_right (Nat.le_of_not_lt hb), List.getElem_replicate,
      List.getD_eq_getElem?_getD, List.getElem?_eq_none (Nat.le_of_not_lt hb), Option.getD_none]

/-- The valid bytes of the packet that a frame yields are the frame's payload. -/
theorem Packet.valid_ofFrame (t : Byte) (bytes : List Byte) (h : bytes.length ≤ 32) :
    (Packet.ofFrame t bytes).valid = bytes := by
  have h8 : bytes.length % 256 = bytes.length := by omega
  simp only [Packet.valid, Packet.ofFrame, paddedPayload, Vector.toList_mk, BitVec.toNat_ofNat]
  simp [h8, List.take_append, h]

/-- A packet is determined by its type, length, checksum and the 32 bytes of its payload. -/
theorem Packet.ext_byte {p q : Packet} (ht : p.type = q.type) (hl : p.length = q.length) (hk : p.cksum = q.cksum)
    (hb : ∀ i, i < 32 → p.byte i = q.byte i) : p = q := by
  obtain ⟨t, l, v, k⟩ := p
  obtain ⟨t', l', v', k'⟩ := q
  obtain rfl : t = t' := ht
  obtain rfl : l = l' := hl
  obtain rfl : k = k' := hk
  have hv : v = v' := by
    apply Vector.ext
    intro i hi
    simpa [Packet.byte, hi] using hb i hi
  rw [hv]

end Sys2Proof
end

