-- ==== Sys2Proof/Laws/Memory.lean ====
section
/-! SUPPORT. The laws of byte memories: a read after a write, every other address unchanged, and the canonical form
kept by every operation. -/

namespace Sys2Proof.Memory

variable {d : Byte}

theorem read_insert (m : Memory) (a : Nat) (v : Byte) (b : Nat) (h : ∀ c ∈ m, c.1 ≠ a) :
    (insert a v m).read d b = if a = b then v else m.read d b := by
  induction m with
  | nil => simp [insert, read]
  | cons c m ih =>
    obtain ⟨k, x⟩ := c
    have hk : k ≠ a := h (k, x) (by simp)
    have ih' := ih (fun c hc => h c (by simp [hc]))
    unfold insert
    split
    · simp [read]
    · simp only [read, ih']
      by_cases hkb : k = b
      · simp [hkb, show ¬ a = b by omega]
      · simp [hkb]

theorem read_filter_ne (m : Memory) (a b : Nat) (h : a ≠ b) :
    read d (m.filter (fun c => c.1 != a)) b = m.read d b := by
  induction m with
  | nil => rfl
  | cons c m ih =>
    obtain ⟨k, x⟩ := c
    by_cases hk : k = a
    · subst hk; simp [read, h, ih]
    · simp [hk, read, ih]

theorem read_filter_self (m : Memory) (a : Nat) : read d (m.filter (fun c => c.1 != a)) a = d := by
  induction m with
  | nil => rfl
  | cons c m ih =>
    obtain ⟨k, x⟩ := c
    by_cases hk : k = a
    · subst hk; simpa using ih
    · simp [hk, read, ih]

/-- A read after a write: the byte written at its address, what was there before at every other. -/
theorem read_write (m : Memory) (a b : Nat) (v : Byte) :
    (write d m a v).read d b = if a = b then v else m.read d b := by
  unfold write
  by_cases hv : v = d
  · by_cases hab : a = b
    · subst hab; simp [hv, read_filter_self]
    · simp [hv, hab, read_filter_ne]
  · rw [if_neg hv, read_insert _ _ _ _ (by simp)]
    by_cases hab : a = b
    · simp [hab]
    · simp [hab, read_filter_ne]

@[simp] theorem read_write_same (m : Memory) (a : Nat) (v : Byte) : (write d m a v).read d a = v := by
  simp [read_write]

theorem read_write_other (m : Memory) {a b : Nat} (v : Byte) (h : a ≠ b) :
    (write d m a v).read d b = m.read d b := by
  simp [read_write, h]

/-- A read after a write of consecutive bytes. -/
theorem read_writeBytes (m : Memory) (a b : Nat) (vs : List Byte) :
    (writeBytes d m a vs).read d b =
      if h : a ≤ b ∧ b < a + vs.length then vs[b - a]'(by omega) else m.read d b := by
  induction vs generalizing m a with
  | nil => simp [writeBytes]
  | cons v vs ih =>
    rw [writeBytes, ih, read_write]
    by_cases h0 : a = b
    · subst h0; simp
    · by_cases h1 : a + 1 ≤ b ∧ b < a + 1 + vs.length
      · have h2 : a ≤ b ∧ b < a + (v :: vs).length := by simp; omega
        rw [dif_pos h1, dif_pos h2]
        have h3 : b - a = (b - (a + 1)) + 1 := by omega
        simp [h3]
      · have h2 : ¬ (a ≤ b ∧ b < a + (v :: vs).length) := by simp; omega
        rw [dif_neg h1, dif_neg h2, if_neg h0]

theorem read_writeBytes_outside (m : Memory) {a b : Nat} (vs : List Byte) (h : b < a ∨ a + vs.length ≤ b) :
    (writeBytes d m a vs).read d b = m.read d b := by
  rw [read_writeBytes, dif_neg (by omega)]

/-- A word reads back as it was written. -/
@[simp] theorem readWord_writeWord (m : Memory) (a : Nat) (v : Word) :
    (writeWord d m a v).readWord d a = v := by
  have h1 : a + 1 - a = 1 := by omega
  have h2 : a + 2 - a = 2 := by omega
  have h3 : a + 3 - a = 3 := by omega
  simp only [readWord, writeWord, read_writeBytes, wordBytes, List.length_cons, List.length_nil]
  rw [dif_pos (by omega), dif_pos (by omega), dif_pos (by omega), dif_pos (by omega)]
  simp only [Nat.sub_self, h1, h2, h3]
  exact le32_wordBytes v

/-- A word write leaves every byte outside the word. -/
theorem read_writeWord_outside (m : Memory) {a b : Nat} (v : Word) (h : b < a ∨ a + 4 ≤ b) :
    (writeWord d m a v).read d b = m.read d b :=
  read_writeBytes_outside m (wordBytes v) h

/-- A read after a clear. -/
theorem read_clear (m : Memory) (lo hi b : Nat) :
    (m.clear lo hi).read d b = if lo ≤ b ∧ b < hi then d else m.read d b := by
  unfold clear
  induction m with
  | nil => simp [read]
  | cons c m ih =>
    obtain ⟨k, x⟩ := c
    by_cases hk : lo ≤ k ∧ k < hi
    · rw [List.filter_cons_of_neg (by simp [hk]), ih]
      by_cases hb : lo ≤ b ∧ b < hi
      · simp [hb]
      · have : k ≠ b := by rintro rfl; exact hb hk
        simp [hb, read, this]
    · rw [List.filter_cons_of_pos (by simp; omega)]
      by_cases hkb : k = b
      · subst hkb; simp [read, hk]
      · simp only [read, if_neg hkb, ih]

/-! The canonical form. -/

theorem wf_cons {k : Nat} {x : Byte} {m : Memory} :
    wf d ((k, x) :: m) = true ↔ x ≠ d ∧ (∀ c ∈ m, k < c.1) ∧ wf d m = true := by
  simp [wf, and_assoc]

theorem wf_filter {m : Memory} (p : Host.Cell → Bool) (h : wf d m = true) : wf d (m.filter p) = true := by
  induction m with
  | nil => rfl
  | cons c m ih =>
    obtain ⟨k, x⟩ := c
    obtain ⟨hx, hlt, hm⟩ := wf_cons.1 h
    rw [List.filter_cons]
    split
    · exact wf_cons.2 ⟨hx, fun c hc => hlt c (List.mem_filter.1 hc).1, ih hm⟩
    · exact ih hm

theorem mem_insert {a : Nat} {v : Byte} {m : Memory} {c : Host.Cell} (h : c ∈ insert a v m) :
    c = (a, v) ∨ c ∈ m := by
  induction m with
  | nil => simpa [insert] using h
  | cons e m ih =>
    obtain ⟨k, x⟩ := e
    unfold insert at h
    split at h
    · simpa using h
    · rcases List.mem_cons.1 h with h | h
      · simp [h]
      · rcases ih h with h | h <;> simp [h]

theorem wf_insert {m : Memory} {a : Nat} {v : Byte} (hv : v ≠ d) (hm : wf d m = true) (ha : ∀ c ∈ m, c.1 ≠ a) :
    wf d (insert a v m) = true := by
  induction m with
  | nil => exact wf_cons.2 ⟨hv, by simp, rfl⟩
  | cons c m ih =>
    obtain ⟨k, x⟩ := c
    obtain ⟨hx, hlt, hm'⟩ := wf_cons.1 hm
    unfold insert
    split
    · rename_i hak
      refine wf_cons.2 ⟨hv, fun c hc => ?_, hm⟩
      rcases List.mem_cons.1 hc with rfl | hc
      · exact hak
      · exact lt_trans hak (hlt c hc)
    · rename_i hak
      have hka : k ≠ a := ha (k, x) (by simp)
      refine wf_cons.2 ⟨hx, fun c hc => ?_, ih hm' (fun c hc => ha c (by simp [hc]))⟩
      rcases mem_insert hc with rfl | hc
      · show k < a; omega
      · exact hlt c hc

/-- A write keeps the canonical form. -/
theorem wf_write {m : Memory} (a : Nat) (v : Byte) (h : wf d m = true) : wf d (write d m a v) = true := by
  unfold write
  by_cases hv : v = d
  · simpa [hv] using wf_filter _ h
  · simpa [hv] using wf_insert hv (wf_filter _ h) (by simp)

theorem wf_writeBytes {m : Memory} (a : Nat) (vs : List Byte) (h : wf d m = true) :
    wf d (writeBytes d m a vs) = true := by
  induction vs generalizing m a with
  | nil => exact h
  | cons v vs ih => exact ih _ (wf_write a v h)

theorem wf_writeWord {m : Memory} (a : Nat) (v : Word) (h : wf d m = true) : wf d (writeWord d m a v) = true :=
  wf_writeBytes a _ h

theorem wf_clear {m : Memory} (lo hi : Nat) (h : wf d m = true) : wf d (m.clear lo hi) = true :=
  wf_filter _ h

/-- A cell of a memory after a write of consecutive bytes is an old cell or lies among the bytes written. -/
theorem mem_writeBytes {m : Memory} {a : Nat} {vs : List Byte} {c : Host.Cell} (h : c ∈ writeBytes d m a vs) :
    c ∈ m ∨ (a ≤ c.1 ∧ c.1 < a + vs.length) := by
  induction vs generalizing m a with
  | nil => exact .inl h
  | cons v vs ih =>
    rcases ih h with h | h
    · unfold write at h
      have hf : ∀ c ∈ m.filter (fun c => c.1 != a), c ∈ m := fun c hc => (List.mem_filter.1 hc).1
      split at h
      · exact .inl (hf _ h)
      · rcases mem_insert h with rfl | h
        · exact .inr (by simp)
        · exact .inl (hf _ h)
    · exact .inr (by simp; omega)

theorem wf_reset_stage : wf stageDefault Machine.State.reset.stage = true := rfl

theorem wf_reset_flash : wf flashDefault Machine.State.reset.env.flash = true := rfl

end Sys2Proof.Memory
end

