-- ==== Sys2Proof/Laws/State.lean ====
section
/-! SUPPORT. One lemma per field per update of State, and per field of the reset and of the return of the dispatcher. -/

namespace Sys2Proof.Machine

@[simp] theorem State.setFst_fst (s : State) (f : Fst) : (s.setFst f).fst = f := rfl
@[simp] theorem State.setFst_top (s : State) (f : Fst) : (s.setFst f).top = s.top := rfl
@[simp] theorem State.setFst_pkt (s : State) (f : Fst) : (s.setFst f).pkt = s.pkt := rfl
@[simp] theorem State.setFst_rxCount (s : State) (f : Fst) : (s.setFst f).rxCount = s.rxCount := rfl
@[simp] theorem State.setFst_ckA (s : State) (f : Fst) : (s.setFst f).ckA = s.ckA := rfl
@[simp] theorem State.setFst_ckB (s : State) (f : Fst) : (s.setFst f).ckB = s.ckB := rfl
@[simp] theorem State.setFst_ckOk (s : State) (f : Fst) : (s.setFst f).ckOk = s.ckOk := rfl
@[simp] theorem State.setFst_replyRequired (s : State) (f : Fst) : (s.setFst f).replyRequired = s.replyRequired := rfl
@[simp] theorem State.setFst_rxq (s : State) (f : Fst) : (s.setFst f).rxq = s.rxq := rfl
@[simp] theorem State.setFst_stage (s : State) (f : Fst) : (s.setFst f).stage = s.stage := rfl
@[simp] theorem State.setFst_wfFpage (s : State) (f : Fst) : (s.setFst f).wfFpage = s.wfFpage := rfl
@[simp] theorem State.setFst_wfN (s : State) (f : Fst) : (s.setFst f).wfN = s.wfN := rfl
@[simp] theorem State.setFst_wfBpage (s : State) (f : Fst) : (s.setFst f).wfBpage = s.wfBpage := rfl
@[simp] theorem State.setFst_wfI (s : State) (f : Fst) : (s.setFst f).wfI = s.wfI := rfl
@[simp] theorem State.setFst_wfAddr (s : State) (f : Fst) : (s.setFst f).wfAddr = s.wfAddr := rfl
@[simp] theorem State.setFst_wfPhase (s : State) (f : Fst) : (s.setFst f).wfPhase = s.wfPhase := rfl
@[simp] theorem State.setFst_wfW (s : State) (f : Fst) : (s.setFst f).wfW = s.wfW := rfl
@[simp] theorem State.setFst_wfS (s : State) (f : Fst) : (s.setFst f).wfS = s.wfS := rfl
@[simp] theorem State.setFst_txIdx (s : State) (f : Fst) : (s.setFst f).txIdx = s.txIdx := rfl
@[simp] theorem State.setFst_stayReq (s : State) (f : Fst) : (s.setFst f).stayReq = s.stayReq := rfl
@[simp] theorem State.setFst_appWord (s : State) (f : Fst) : (s.setFst f).appWord = s.appWord := rfl
@[simp] theorem State.setFst_env (s : State) (f : Fst) : (s.setFst f).env = s.env := rfl

@[simp] theorem State.setTop_fst (s : State) (t : Top) : (s.setTop t).fst = s.fst := rfl
@[simp] theorem State.setTop_top (s : State) (t : Top) : (s.setTop t).top = t := rfl
@[simp] theorem State.setTop_pkt (s : State) (t : Top) : (s.setTop t).pkt = s.pkt := rfl
@[simp] theorem State.setTop_rxCount (s : State) (t : Top) : (s.setTop t).rxCount = s.rxCount := rfl
@[simp] theorem State.setTop_ckA (s : State) (t : Top) : (s.setTop t).ckA = s.ckA := rfl
@[simp] theorem State.setTop_ckB (s : State) (t : Top) : (s.setTop t).ckB = s.ckB := rfl
@[simp] theorem State.setTop_ckOk (s : State) (t : Top) : (s.setTop t).ckOk = s.ckOk := rfl
@[simp] theorem State.setTop_replyRequired (s : State) (t : Top) : (s.setTop t).replyRequired = s.replyRequired := rfl
@[simp] theorem State.setTop_rxq (s : State) (t : Top) : (s.setTop t).rxq = s.rxq := rfl
@[simp] theorem State.setTop_stage (s : State) (t : Top) : (s.setTop t).stage = s.stage := rfl
@[simp] theorem State.setTop_wfFpage (s : State) (t : Top) : (s.setTop t).wfFpage = s.wfFpage := rfl
@[simp] theorem State.setTop_wfN (s : State) (t : Top) : (s.setTop t).wfN = s.wfN := rfl
@[simp] theorem State.setTop_wfBpage (s : State) (t : Top) : (s.setTop t).wfBpage = s.wfBpage := rfl
@[simp] theorem State.setTop_wfI (s : State) (t : Top) : (s.setTop t).wfI = s.wfI := rfl
@[simp] theorem State.setTop_wfAddr (s : State) (t : Top) : (s.setTop t).wfAddr = s.wfAddr := rfl
@[simp] theorem State.setTop_wfPhase (s : State) (t : Top) : (s.setTop t).wfPhase = s.wfPhase := rfl
@[simp] theorem State.setTop_wfW (s : State) (t : Top) : (s.setTop t).wfW = s.wfW := rfl
@[simp] theorem State.setTop_wfS (s : State) (t : Top) : (s.setTop t).wfS = s.wfS := rfl
@[simp] theorem State.setTop_txIdx (s : State) (t : Top) : (s.setTop t).txIdx = s.txIdx := rfl
@[simp] theorem State.setTop_stayReq (s : State) (t : Top) : (s.setTop t).stayReq = s.stayReq := rfl
@[simp] theorem State.setTop_appWord (s : State) (t : Top) : (s.setTop t).appWord = s.appWord := rfl
@[simp] theorem State.setTop_env (s : State) (t : Top) : (s.setTop t).env = s.env := rfl

@[simp] theorem State.setPkt_fst (s : State) (p : Packet) : (s.setPkt p).fst = s.fst := rfl
@[simp] theorem State.setPkt_top (s : State) (p : Packet) : (s.setPkt p).top = s.top := rfl
@[simp] theorem State.setPkt_pkt (s : State) (p : Packet) : (s.setPkt p).pkt = p := rfl
@[simp] theorem State.setPkt_rxCount (s : State) (p : Packet) : (s.setPkt p).rxCount = s.rxCount := rfl
@[simp] theorem State.setPkt_ckA (s : State) (p : Packet) : (s.setPkt p).ckA = s.ckA := rfl
@[simp] theorem State.setPkt_ckB (s : State) (p : Packet) : (s.setPkt p).ckB = s.ckB := rfl
@[simp] theorem State.setPkt_ckOk (s : State) (p : Packet) : (s.setPkt p).ckOk = s.ckOk := rfl
@[simp] theorem State.setPkt_replyRequired (s : State) (p : Packet) : (s.setPkt p).replyRequired = s.replyRequired := rfl
@[simp] theorem State.setPkt_rxq (s : State) (p : Packet) : (s.setPkt p).rxq = s.rxq := rfl
@[simp] theorem State.setPkt_stage (s : State) (p : Packet) : (s.setPkt p).stage = s.stage := rfl
@[simp] theorem State.setPkt_wfFpage (s : State) (p : Packet) : (s.setPkt p).wfFpage = s.wfFpage := rfl
@[simp] theorem State.setPkt_wfN (s : State) (p : Packet) : (s.setPkt p).wfN = s.wfN := rfl
@[simp] theorem State.setPkt_wfBpage (s : State) (p : Packet) : (s.setPkt p).wfBpage = s.wfBpage := rfl
@[simp] theorem State.setPkt_wfI (s : State) (p : Packet) : (s.setPkt p).wfI = s.wfI := rfl
@[simp] theorem State.setPkt_wfAddr (s : State) (p : Packet) : (s.setPkt p).wfAddr = s.wfAddr := rfl
@[simp] theorem State.setPkt_wfPhase (s : State) (p : Packet) : (s.setPkt p).wfPhase = s.wfPhase := rfl
@[simp] theorem State.setPkt_wfW (s : State) (p : Packet) : (s.setPkt p).wfW = s.wfW := rfl
@[simp] theorem State.setPkt_wfS (s : State) (p : Packet) : (s.setPkt p).wfS = s.wfS := rfl
@[simp] theorem State.setPkt_txIdx (s : State) (p : Packet) : (s.setPkt p).txIdx = s.txIdx := rfl
@[simp] theorem State.setPkt_stayReq (s : State) (p : Packet) : (s.setPkt p).stayReq = s.stayReq := rfl
@[simp] theorem State.setPkt_appWord (s : State) (p : Packet) : (s.setPkt p).appWord = s.appWord := rfl
@[simp] theorem State.setPkt_env (s : State) (p : Packet) : (s.setPkt p).env = s.env := rfl

@[simp] theorem State.setRxCount_fst (s : State) (n : BitVec 6) : (s.setRxCount n).fst = s.fst := rfl
@[simp] theorem State.setRxCount_top (s : State) (n : BitVec 6) : (s.setRxCount n).top = s.top := rfl
@[simp] theorem State.setRxCount_pkt (s : State) (n : BitVec 6) : (s.setRxCount n).pkt = s.pkt := rfl
@[simp] theorem State.setRxCount_rxCount (s : State) (n : BitVec 6) : (s.setRxCount n).rxCount = n := rfl
@[simp] theorem State.setRxCount_ckA (s : State) (n : BitVec 6) : (s.setRxCount n).ckA = s.ckA := rfl
@[simp] theorem State.setRxCount_ckB (s : State) (n : BitVec 6) : (s.setRxCount n).ckB = s.ckB := rfl
@[simp] theorem State.setRxCount_ckOk (s : State) (n : BitVec 6) : (s.setRxCount n).ckOk = s.ckOk := rfl
@[simp] theorem State.setRxCount_replyRequired (s : State) (n : BitVec 6) : (s.setRxCount n).replyRequired = s.replyRequired := rfl
@[simp] theorem State.setRxCount_rxq (s : State) (n : BitVec 6) : (s.setRxCount n).rxq = s.rxq := rfl
@[simp] theorem State.setRxCount_stage (s : State) (n : BitVec 6) : (s.setRxCount n).stage = s.stage := rfl
@[simp] theorem State.setRxCount_wfFpage (s : State) (n : BitVec 6) : (s.setRxCount n).wfFpage = s.wfFpage := rfl
@[simp] theorem State.setRxCount_wfN (s : State) (n : BitVec 6) : (s.setRxCount n).wfN = s.wfN := rfl
@[simp] theorem State.setRxCount_wfBpage (s : State) (n : BitVec 6) : (s.setRxCount n).wfBpage = s.wfBpage := rfl
@[simp] theorem State.setRxCount_wfI (s : State) (n : BitVec 6) : (s.setRxCount n).wfI = s.wfI := rfl
@[simp] theorem State.setRxCount_wfAddr (s : State) (n : BitVec 6) : (s.setRxCount n).wfAddr = s.wfAddr := rfl
@[simp] theorem State.setRxCount_wfPhase (s : State) (n : BitVec 6) : (s.setRxCount n).wfPhase = s.wfPhase := rfl
@[simp] theorem State.setRxCount_wfW (s : State) (n : BitVec 6) : (s.setRxCount n).wfW = s.wfW := rfl
@[simp] theorem State.setRxCount_wfS (s : State) (n : BitVec 6) : (s.setRxCount n).wfS = s.wfS := rfl
@[simp] theorem State.setRxCount_txIdx (s : State) (n : BitVec 6) : (s.setRxCount n).txIdx = s.txIdx := rfl
@[simp] theorem State.setRxCount_stayReq (s : State) (n : BitVec 6) : (s.setRxCount n).stayReq = s.stayReq := rfl
@[simp] theorem State.setRxCount_appWord (s : State) (n : BitVec 6) : (s.setRxCount n).appWord = s.appWord := rfl
@[simp] theorem State.setRxCount_env (s : State) (n : BitVec 6) : (s.setRxCount n).env = s.env := rfl

@[simp] theorem State.setRxq_fst (s : State) (q : List Byte) : (s.setRxq q).fst = s.fst := rfl
@[simp] theorem State.setRxq_top (s : State) (q : List Byte) : (s.setRxq q).top = s.top := rfl
@[simp] theorem State.setRxq_pkt (s : State) (q : List Byte) : (s.setRxq q).pkt = s.pkt := rfl
@[simp] theorem State.setRxq_rxCount (s : State) (q : List Byte) : (s.setRxq q).rxCount = s.rxCount := rfl
@[simp] theorem State.setRxq_ckA (s : State) (q : List Byte) : (s.setRxq q).ckA = s.ckA := rfl
@[simp] theorem State.setRxq_ckB (s : State) (q : List Byte) : (s.setRxq q).ckB = s.ckB := rfl
@[simp] theorem State.setRxq_ckOk (s : State) (q : List Byte) : (s.setRxq q).ckOk = s.ckOk := rfl
@[simp] theorem State.setRxq_replyRequired (s : State) (q : List Byte) : (s.setRxq q).replyRequired = s.replyRequired := rfl
@[simp] theorem State.setRxq_rxq (s : State) (q : List Byte) : (s.setRxq q).rxq = q := rfl
@[simp] theorem State.setRxq_stage (s : State) (q : List Byte) : (s.setRxq q).stage = s.stage := rfl
@[simp] theorem State.setRxq_wfFpage (s : State) (q : List Byte) : (s.setRxq q).wfFpage = s.wfFpage := rfl
@[simp] theorem State.setRxq_wfN (s : State) (q : List Byte) : (s.setRxq q).wfN = s.wfN := rfl
@[simp] theorem State.setRxq_wfBpage (s : State) (q : List Byte) : (s.setRxq q).wfBpage = s.wfBpage := rfl
@[simp] theorem State.setRxq_wfI (s : State) (q : List Byte) : (s.setRxq q).wfI = s.wfI := rfl
@[simp] theorem State.setRxq_wfAddr (s : State) (q : List Byte) : (s.setRxq q).wfAddr = s.wfAddr := rfl
@[simp] theorem State.setRxq_wfPhase (s : State) (q : List Byte) : (s.setRxq q).wfPhase = s.wfPhase := rfl
@[simp] theorem State.setRxq_wfW (s : State) (q : List Byte) : (s.setRxq q).wfW = s.wfW := rfl
@[simp] theorem State.setRxq_wfS (s : State) (q : List Byte) : (s.setRxq q).wfS = s.wfS := rfl
@[simp] theorem State.setRxq_txIdx (s : State) (q : List Byte) : (s.setRxq q).txIdx = s.txIdx := rfl
@[simp] theorem State.setRxq_stayReq (s : State) (q : List Byte) : (s.setRxq q).stayReq = s.stayReq := rfl
@[simp] theorem State.setRxq_appWord (s : State) (q : List Byte) : (s.setRxq q).appWord = s.appWord := rfl
@[simp] theorem State.setRxq_env (s : State) (q : List Byte) : (s.setRxq q).env = s.env := rfl

@[simp] theorem State.setStage_fst (s : State) (m : Memory) : (s.setStage m).fst = s.fst := rfl
@[simp] theorem State.setStage_top (s : State) (m : Memory) : (s.setStage m).top = s.top := rfl
@[simp] theorem State.setStage_pkt (s : State) (m : Memory) : (s.setStage m).pkt = s.pkt := rfl
@[simp] theorem State.setStage_rxCount (s : State) (m : Memory) : (s.setStage m).rxCount = s.rxCount := rfl
@[simp] theorem State.setStage_ckA (s : State) (m : Memory) : (s.setStage m).ckA = s.ckA := rfl
@[simp] theorem State.setStage_ckB (s : State) (m : Memory) : (s.setStage m).ckB = s.ckB := rfl
@[simp] theorem State.setStage_ckOk (s : State) (m : Memory) : (s.setStage m).ckOk = s.ckOk := rfl
@[simp] theorem State.setStage_replyRequired (s : State) (m : Memory) : (s.setStage m).replyRequired = s.replyRequired := rfl
@[simp] theorem State.setStage_rxq (s : State) (m : Memory) : (s.setStage m).rxq = s.rxq := rfl
@[simp] theorem State.setStage_stage (s : State) (m : Memory) : (s.setStage m).stage = m := rfl
@[simp] theorem State.setStage_wfFpage (s : State) (m : Memory) : (s.setStage m).wfFpage = s.wfFpage := rfl
@[simp] theorem State.setStage_wfN (s : State) (m : Memory) : (s.setStage m).wfN = s.wfN := rfl
@[simp] theorem State.setStage_wfBpage (s : State) (m : Memory) : (s.setStage m).wfBpage = s.wfBpage := rfl
@[simp] theorem State.setStage_wfI (s : State) (m : Memory) : (s.setStage m).wfI = s.wfI := rfl
@[simp] theorem State.setStage_wfAddr (s : State) (m : Memory) : (s.setStage m).wfAddr = s.wfAddr := rfl
@[simp] theorem State.setStage_wfPhase (s : State) (m : Memory) : (s.setStage m).wfPhase = s.wfPhase := rfl
@[simp] theorem State.setStage_wfW (s : State) (m : Memory) : (s.setStage m).wfW = s.wfW := rfl
@[simp] theorem State.setStage_wfS (s : State) (m : Memory) : (s.setStage m).wfS = s.wfS := rfl
@[simp] theorem State.setStage_txIdx (s : State) (m : Memory) : (s.setStage m).txIdx = s.txIdx := rfl
@[simp] theorem State.setStage_stayReq (s : State) (m : Memory) : (s.setStage m).stayReq = s.stayReq := rfl
@[simp] theorem State.setStage_appWord (s : State) (m : Memory) : (s.setStage m).appWord = s.appWord := rfl
@[simp] theorem State.setStage_env (s : State) (m : Memory) : (s.setStage m).env = s.env := rfl

@[simp] theorem State.setPhase_fst (s : State) (p : WfPhase) : (s.setPhase p).fst = s.fst := rfl
@[simp] theorem State.setPhase_top (s : State) (p : WfPhase) : (s.setPhase p).top = s.top := rfl
@[simp] theorem State.setPhase_pkt (s : State) (p : WfPhase) : (s.setPhase p).pkt = s.pkt := rfl
@[simp] theorem State.setPhase_rxCount (s : State) (p : WfPhase) : (s.setPhase p).rxCount = s.rxCount := rfl
@[simp] theorem State.setPhase_ckA (s : State) (p : WfPhase) : (s.setPhase p).ckA = s.ckA := rfl
@[simp] theorem State.setPhase_ckB (s : State) (p : WfPhase) : (s.setPhase p).ckB = s.ckB := rfl
@[simp] theorem State.setPhase_ckOk (s : State) (p : WfPhase) : (s.setPhase p).ckOk = s.ckOk := rfl
@[simp] theorem State.setPhase_replyRequired (s : State) (p : WfPhase) : (s.setPhase p).replyRequired = s.replyRequired := rfl
@[simp] theorem State.setPhase_rxq (s : State) (p : WfPhase) : (s.setPhase p).rxq = s.rxq := rfl
@[simp] theorem State.setPhase_stage (s : State) (p : WfPhase) : (s.setPhase p).stage = s.stage := rfl
@[simp] theorem State.setPhase_wfFpage (s : State) (p : WfPhase) : (s.setPhase p).wfFpage = s.wfFpage := rfl
@[simp] theorem State.setPhase_wfN (s : State) (p : WfPhase) : (s.setPhase p).wfN = s.wfN := rfl
@[simp] theorem State.setPhase_wfBpage (s : State) (p : WfPhase) : (s.setPhase p).wfBpage = s.wfBpage := rfl
@[simp] theorem State.setPhase_wfI (s : State) (p : WfPhase) : (s.setPhase p).wfI = s.wfI := rfl
@[simp] theorem State.setPhase_wfAddr (s : State) (p : WfPhase) : (s.setPhase p).wfAddr = s.wfAddr := rfl
@[simp] theorem State.setPhase_wfPhase (s : State) (p : WfPhase) : (s.setPhase p).wfPhase = p := rfl
@[simp] theorem State.setPhase_wfW (s : State) (p : WfPhase) : (s.setPhase p).wfW = s.wfW := rfl
@[simp] theorem State.setPhase_wfS (s : State) (p : WfPhase) : (s.setPhase p).wfS = s.wfS := rfl
@[simp] theorem State.setPhase_txIdx (s : State) (p : WfPhase) : (s.setPhase p).txIdx = s.txIdx := rfl
@[simp] theorem State.setPhase_stayReq (s : State) (p : WfPhase) : (s.setPhase p).stayReq = s.stayReq := rfl
@[simp] theorem State.setPhase_appWord (s : State) (p : WfPhase) : (s.setPhase p).appWord = s.appWord := rfl
@[simp] theorem State.setPhase_env (s : State) (p : WfPhase) : (s.setPhase p).env = s.env := rfl

@[simp] theorem State.setReply_fst (s : State) (b : Bool) : (s.setReply b).fst = s.fst := rfl
@[simp] theorem State.setReply_top (s : State) (b : Bool) : (s.setReply b).top = s.top := rfl
@[simp] theorem State.setReply_pkt (s : State) (b : Bool) : (s.setReply b).pkt = s.pkt := rfl
@[simp] theorem State.setReply_rxCount (s : State) (b : Bool) : (s.setReply b).rxCount = s.rxCount := rfl
@[simp] theorem State.setReply_ckA (s : State) (b : Bool) : (s.setReply b).ckA = s.ckA := rfl
@[simp] theorem State.setReply_ckB (s : State) (b : Bool) : (s.setReply b).ckB = s.ckB := rfl
@[simp] theorem State.setReply_ckOk (s : State) (b : Bool) : (s.setReply b).ckOk = s.ckOk := rfl
@[simp] theorem State.setReply_replyRequired (s : State) (b : Bool) : (s.setReply b).replyRequired = b := rfl
@[simp] theorem State.setReply_rxq (s : State) (b : Bool) : (s.setReply b).rxq = s.rxq := rfl
@[simp] theorem State.setReply_stage (s : State) (b : Bool) : (s.setReply b).stage = s.stage := rfl
@[simp] theorem State.setReply_wfFpage (s : State) (b : Bool) : (s.setReply b).wfFpage = s.wfFpage := rfl
@[simp] theorem State.setReply_wfN (s : State) (b : Bool) : (s.setReply b).wfN = s.wfN := rfl
@[simp] theorem State.setReply_wfBpage (s : State) (b : Bool) : (s.setReply b).wfBpage = s.wfBpage := rfl
@[simp] theorem State.setReply_wfI (s : State) (b : Bool) : (s.setReply b).wfI = s.wfI := rfl
@[simp] theorem State.setReply_wfAddr (s : State) (b : Bool) : (s.setReply b).wfAddr = s.wfAddr := rfl
@[simp] theorem State.setReply_wfPhase (s : State) (b : Bool) : (s.setReply b).wfPhase = s.wfPhase := rfl
@[simp] theorem State.setReply_wfW (s : State) (b : Bool) : (s.setReply b).wfW = s.wfW := rfl
@[simp] theorem State.setReply_wfS (s : State) (b : Bool) : (s.setReply b).wfS = s.wfS := rfl
@[simp] theorem State.setReply_txIdx (s : State) (b : Bool) : (s.setReply b).txIdx = s.txIdx := rfl
@[simp] theorem State.setReply_stayReq (s : State) (b : Bool) : (s.setReply b).stayReq = s.stayReq := rfl
@[simp] theorem State.setReply_appWord (s : State) (b : Bool) : (s.setReply b).appWord = s.appWord := rfl
@[simp] theorem State.setReply_env (s : State) (b : Bool) : (s.setReply b).env = s.env := rfl

@[simp] theorem State.setEnv_fst (s : State) (e : Env) : (s.setEnv e).fst = s.fst := rfl
@[simp] theorem State.setEnv_top (s : State) (e : Env) : (s.setEnv e).top = s.top := rfl
@[simp] theorem State.setEnv_pkt (s : State) (e : Env) : (s.setEnv e).pkt = s.pkt := rfl
@[simp] theorem State.setEnv_rxCount (s : State) (e : Env) : (s.setEnv e).rxCount = s.rxCount := rfl
@[simp] theorem State.setEnv_ckA (s : State) (e : Env) : (s.setEnv e).ckA = s.ckA := rfl
@[simp] theorem State.setEnv_ckB (s : State) (e : Env) : (s.setEnv e).ckB = s.ckB := rfl
@[simp] theorem State.setEnv_ckOk (s : State) (e : Env) : (s.setEnv e).ckOk = s.ckOk := rfl
@[simp] theorem State.setEnv_replyRequired (s : State) (e : Env) : (s.setEnv e).replyRequired = s.replyRequired := rfl
@[simp] theorem State.setEnv_rxq (s : State) (e : Env) : (s.setEnv e).rxq = s.rxq := rfl
@[simp] theorem State.setEnv_stage (s : State) (e : Env) : (s.setEnv e).stage = s.stage := rfl
@[simp] theorem State.setEnv_wfFpage (s : State) (e : Env) : (s.setEnv e).wfFpage = s.wfFpage := rfl
@[simp] theorem State.setEnv_wfN (s : State) (e : Env) : (s.setEnv e).wfN = s.wfN := rfl
@[simp] theorem State.setEnv_wfBpage (s : State) (e : Env) : (s.setEnv e).wfBpage = s.wfBpage := rfl
@[simp] theorem State.setEnv_wfI (s : State) (e : Env) : (s.setEnv e).wfI = s.wfI := rfl
@[simp] theorem State.setEnv_wfAddr (s : State) (e : Env) : (s.setEnv e).wfAddr = s.wfAddr := rfl
@[simp] theorem State.setEnv_wfPhase (s : State) (e : Env) : (s.setEnv e).wfPhase = s.wfPhase := rfl
@[simp] theorem State.setEnv_wfW (s : State) (e : Env) : (s.setEnv e).wfW = s.wfW := rfl
@[simp] theorem State.setEnv_wfS (s : State) (e : Env) : (s.setEnv e).wfS = s.wfS := rfl
@[simp] theorem State.setEnv_txIdx (s : State) (e : Env) : (s.setEnv e).txIdx = s.txIdx := rfl
@[simp] theorem State.setEnv_stayReq (s : State) (e : Env) : (s.setEnv e).stayReq = s.stayReq := rfl
@[simp] theorem State.setEnv_appWord (s : State) (e : Env) : (s.setEnv e).appWord = s.appWord := rfl
@[simp] theorem State.setEnv_env (s : State) (e : Env) : (s.setEnv e).env = e := rfl

@[simp] theorem State.setCkAcc_fst (s : State) (k : CkAcc) : (s.setCkAcc k).fst = s.fst := rfl
@[simp] theorem State.setCkAcc_top (s : State) (k : CkAcc) : (s.setCkAcc k).top = s.top := rfl
@[simp] theorem State.setCkAcc_pkt (s : State) (k : CkAcc) : (s.setCkAcc k).pkt = s.pkt := rfl
@[simp] theorem State.setCkAcc_rxCount (s : State) (k : CkAcc) : (s.setCkAcc k).rxCount = s.rxCount := rfl
@[simp] theorem State.setCkAcc_ckA (s : State) (k : CkAcc) : (s.setCkAcc k).ckA = k.a := rfl
@[simp] theorem State.setCkAcc_ckB (s : State) (k : CkAcc) : (s.setCkAcc k).ckB = k.b := rfl
@[simp] theorem State.setCkAcc_ckOk (s : State) (k : CkAcc) : (s.setCkAcc k).ckOk = s.ckOk := rfl
@[simp] theorem State.setCkAcc_replyRequired (s : State) (k : CkAcc) : (s.setCkAcc k).replyRequired = s.replyRequired := rfl
@[simp] theorem State.setCkAcc_rxq (s : State) (k : CkAcc) : (s.setCkAcc k).rxq = s.rxq := rfl
@[simp] theorem State.setCkAcc_stage (s : State) (k : CkAcc) : (s.setCkAcc k).stage = s.stage := rfl
@[simp] theorem State.setCkAcc_wfFpage (s : State) (k : CkAcc) : (s.setCkAcc k).wfFpage = s.wfFpage := rfl
@[simp] theorem State.setCkAcc_wfN (s : State) (k : CkAcc) : (s.setCkAcc k).wfN = s.wfN := rfl
@[simp] theorem State.setCkAcc_wfBpage (s : State) (k : CkAcc) : (s.setCkAcc k).wfBpage = s.wfBpage := rfl
@[simp] theorem State.setCkAcc_wfI (s : State) (k : CkAcc) : (s.setCkAcc k).wfI = s.wfI := rfl
@[simp] theorem State.setCkAcc_wfAddr (s : State) (k : CkAcc) : (s.setCkAcc k).wfAddr = s.wfAddr := rfl
@[simp] theorem State.setCkAcc_wfPhase (s : State) (k : CkAcc) : (s.setCkAcc k).wfPhase = s.wfPhase := rfl
@[simp] theorem State.setCkAcc_wfW (s : State) (k : CkAcc) : (s.setCkAcc k).wfW = s.wfW := rfl
@[simp] theorem State.setCkAcc_wfS (s : State) (k : CkAcc) : (s.setCkAcc k).wfS = s.wfS := rfl
@[simp] theorem State.setCkAcc_txIdx (s : State) (k : CkAcc) : (s.setCkAcc k).txIdx = s.txIdx := rfl
@[simp] theorem State.setCkAcc_stayReq (s : State) (k : CkAcc) : (s.setCkAcc k).stayReq = s.stayReq := rfl
@[simp] theorem State.setCkAcc_appWord (s : State) (k : CkAcc) : (s.setCkAcc k).appWord = s.appWord := rfl
@[simp] theorem State.setCkAcc_env (s : State) (k : CkAcc) : (s.setCkAcc k).env = s.env := rfl

@[simp] theorem State.emit_fst (s : State) (e : Event) : (s.emit e).fst = s.fst := rfl
@[simp] theorem State.emit_top (s : State) (e : Event) : (s.emit e).top = s.top := rfl
@[simp] theorem State.emit_pkt (s : State) (e : Event) : (s.emit e).pkt = s.pkt := rfl
@[simp] theorem State.emit_rxCount (s : State) (e : Event) : (s.emit e).rxCount = s.rxCount := rfl
@[simp] theorem State.emit_ckA (s : State) (e : Event) : (s.emit e).ckA = s.ckA := rfl
@[simp] theorem State.emit_ckB (s : State) (e : Event) : (s.emit e).ckB = s.ckB := rfl
@[simp] theorem State.emit_ckOk (s : State) (e : Event) : (s.emit e).ckOk = s.ckOk := rfl
@[simp] theorem State.emit_replyRequired (s : State) (e : Event) : (s.emit e).replyRequired = s.replyRequired := rfl
@[simp] theorem State.emit_rxq (s : State) (e : Event) : (s.emit e).rxq = s.rxq := rfl
@[simp] theorem State.emit_stage (s : State) (e : Event) : (s.emit e).stage = s.stage := rfl
@[simp] theorem State.emit_wfFpage (s : State) (e : Event) : (s.emit e).wfFpage = s.wfFpage := rfl
@[simp] theorem State.emit_wfN (s : State) (e : Event) : (s.emit e).wfN = s.wfN := rfl
@[simp] theorem State.emit_wfBpage (s : State) (e : Event) : (s.emit e).wfBpage = s.wfBpage := rfl
@[simp] theorem State.emit_wfI (s : State) (e : Event) : (s.emit e).wfI = s.wfI := rfl
@[simp] theorem State.emit_wfAddr (s : State) (e : Event) : (s.emit e).wfAddr = s.wfAddr := rfl
@[simp] theorem State.emit_wfPhase (s : State) (e : Event) : (s.emit e).wfPhase = s.wfPhase := rfl
@[simp] theorem State.emit_wfW (s : State) (e : Event) : (s.emit e).wfW = s.wfW := rfl
@[simp] theorem State.emit_wfS (s : State) (e : Event) : (s.emit e).wfS = s.wfS := rfl
@[simp] theorem State.emit_txIdx (s : State) (e : Event) : (s.emit e).txIdx = s.txIdx := rfl
@[simp] theorem State.emit_stayReq (s : State) (e : Event) : (s.emit e).stayReq = s.stayReq := rfl
@[simp] theorem State.emit_appWord (s : State) (e : Event) : (s.emit e).appWord = s.appWord := rfl
@[simp] theorem State.emit_env (s : State) (e : Event) : (s.emit e).env = { s.env with trace := s.env.trace ++ [e] } := rfl

@[simp] theorem State.diag_fst (s : State) (d : Diag) : (s.diag d).fst = s.fst := rfl
@[simp] theorem State.diag_top (s : State) (d : Diag) : (s.diag d).top = s.top := rfl
@[simp] theorem State.diag_pkt (s : State) (d : Diag) : (s.diag d).pkt = s.pkt := rfl
@[simp] theorem State.diag_rxCount (s : State) (d : Diag) : (s.diag d).rxCount = s.rxCount := rfl
@[simp] theorem State.diag_ckA (s : State) (d : Diag) : (s.diag d).ckA = s.ckA := rfl
@[simp] theorem State.diag_ckB (s : State) (d : Diag) : (s.diag d).ckB = s.ckB := rfl
@[simp] theorem State.diag_ckOk (s : State) (d : Diag) : (s.diag d).ckOk = s.ckOk := rfl
@[simp] theorem State.diag_replyRequired (s : State) (d : Diag) : (s.diag d).replyRequired = s.replyRequired := rfl
@[simp] theorem State.diag_rxq (s : State) (d : Diag) : (s.diag d).rxq = s.rxq := rfl
@[simp] theorem State.diag_stage (s : State) (d : Diag) : (s.diag d).stage = s.stage := rfl
@[simp] theorem State.diag_wfFpage (s : State) (d : Diag) : (s.diag d).wfFpage = s.wfFpage := rfl
@[simp] theorem State.diag_wfN (s : State) (d : Diag) : (s.diag d).wfN = s.wfN := rfl
@[simp] theorem State.diag_wfBpage (s : State) (d : Diag) : (s.diag d).wfBpage = s.wfBpage := rfl
@[simp] theorem State.diag_wfI (s : State) (d : Diag) : (s.diag d).wfI = s.wfI := rfl
@[simp] theorem State.diag_wfAddr (s : State) (d : Diag) : (s.diag d).wfAddr = s.wfAddr := rfl
@[simp] theorem State.diag_wfPhase (s : State) (d : Diag) : (s.diag d).wfPhase = s.wfPhase := rfl
@[simp] theorem State.diag_wfW (s : State) (d : Diag) : (s.diag d).wfW = s.wfW := rfl
@[simp] theorem State.diag_wfS (s : State) (d : Diag) : (s.diag d).wfS = s.wfS := rfl
@[simp] theorem State.diag_txIdx (s : State) (d : Diag) : (s.diag d).txIdx = s.txIdx := rfl
@[simp] theorem State.diag_stayReq (s : State) (d : Diag) : (s.diag d).stayReq = s.stayReq := rfl
@[simp] theorem State.diag_appWord (s : State) (d : Diag) : (s.diag d).appWord = s.appWord := rfl
@[simp] theorem State.diag_env (s : State) (d : Diag) : (s.diag d).env = { s.env with trace := s.env.trace ++ [Event.diag d] } := rfl

@[simp] theorem State.configure_fst (s : State) (c : FcConfig) : (s.configure c).fst = s.fst := rfl
@[simp] theorem State.configure_top (s : State) (c : FcConfig) : (s.configure c).top = s.top := rfl
@[simp] theorem State.configure_pkt (s : State) (c : FcConfig) : (s.configure c).pkt = s.pkt := rfl
@[simp] theorem State.configure_rxCount (s : State) (c : FcConfig) : (s.configure c).rxCount = s.rxCount := rfl
@[simp] theorem State.configure_ckA (s : State) (c : FcConfig) : (s.configure c).ckA = s.ckA := rfl
@[simp] theorem State.configure_ckB (s : State) (c : FcConfig) : (s.configure c).ckB = s.ckB := rfl
@[simp] theorem State.configure_ckOk (s : State) (c : FcConfig) : (s.configure c).ckOk = s.ckOk := rfl
@[simp] theorem State.configure_replyRequired (s : State) (c : FcConfig) : (s.configure c).replyRequired = s.replyRequired := rfl
@[simp] theorem State.configure_rxq (s : State) (c : FcConfig) : (s.configure c).rxq = s.rxq := rfl
@[simp] theorem State.configure_stage (s : State) (c : FcConfig) : (s.configure c).stage = s.stage := rfl
@[simp] theorem State.configure_wfFpage (s : State) (c : FcConfig) : (s.configure c).wfFpage = s.wfFpage := rfl
@[simp] theorem State.configure_wfN (s : State) (c : FcConfig) : (s.configure c).wfN = s.wfN := rfl
@[simp] theorem State.configure_wfBpage (s : State) (c : FcConfig) : (s.configure c).wfBpage = s.wfBpage := rfl
@[simp] theorem State.configure_wfI (s : State) (c : FcConfig) : (s.configure c).wfI = s.wfI := rfl
@[simp] theorem State.configure_wfAddr (s : State) (c : FcConfig) : (s.configure c).wfAddr = s.wfAddr := rfl
@[simp] theorem State.configure_wfPhase (s : State) (c : FcConfig) : (s.configure c).wfPhase = s.wfPhase := rfl
@[simp] theorem State.configure_wfW (s : State) (c : FcConfig) : (s.configure c).wfW = s.wfW := rfl
@[simp] theorem State.configure_wfS (s : State) (c : FcConfig) : (s.configure c).wfS = s.wfS := rfl
@[simp] theorem State.configure_txIdx (s : State) (c : FcConfig) : (s.configure c).txIdx = s.txIdx := rfl
@[simp] theorem State.configure_stayReq (s : State) (c : FcConfig) : (s.configure c).stayReq = s.stayReq := rfl
@[simp] theorem State.configure_appWord (s : State) (c : FcConfig) : (s.configure c).appWord = s.appWord := rfl
@[simp] theorem State.configure_env (s : State) (c : FcConfig) : (s.configure c).env = { s.env with trace := s.env.trace ++ [Event.fc (.configure c)] }.applyConfig c := rfl

@[simp] theorem State.writeWord_fst (s : State) (a v : Word) : (s.writeWord a v).fst = s.fst := rfl
@[simp] theorem State.writeWord_top (s : State) (a v : Word) : (s.writeWord a v).top = s.top := rfl
@[simp] theorem State.writeWord_pkt (s : State) (a v : Word) : (s.writeWord a v).pkt = s.pkt := rfl
@[simp] theorem State.writeWord_rxCount (s : State) (a v : Word) : (s.writeWord a v).rxCount = s.rxCount := rfl
@[simp] theorem State.writeWord_ckA (s : State) (a v : Word) : (s.writeWord a v).ckA = s.ckA := rfl
@[simp] theorem State.writeWord_ckB (s : State) (a v : Word) : (s.writeWord a v).ckB = s.ckB := rfl
@[simp] theorem State.writeWord_ckOk (s : State) (a v : Word) : (s.writeWord a v).ckOk = s.ckOk := rfl
@[simp] theorem State.writeWord_replyRequired (s : State) (a v : Word) : (s.writeWord a v).replyRequired = s.replyRequired := rfl
@[simp] theorem State.writeWord_rxq (s : State) (a v : Word) : (s.writeWord a v).rxq = s.rxq := rfl
@[simp] theorem State.writeWord_stage (s : State) (a v : Word) : (s.writeWord a v).stage = s.stage := rfl
@[simp] theorem State.writeWord_wfFpage (s : State) (a v : Word) : (s.writeWord a v).wfFpage = s.wfFpage := rfl
@[simp] theorem State.writeWord_wfN (s : State) (a v : Word) : (s.writeWord a v).wfN = s.wfN := rfl
@[simp] theorem State.writeWord_wfBpage (s : State) (a v : Word) : (s.writeWord a v).wfBpage = s.wfBpage := rfl
@[simp] theorem State.writeWord_wfI (s : State) (a v : Word) : (s.writeWord a v).wfI = s.wfI := rfl
@[simp] theorem State.writeWord_wfAddr (s : State) (a v : Word) : (s.writeWord a v).wfAddr = s.wfAddr := rfl
@[simp] theorem State.writeWord_wfPhase (s : State) (a v : Word) : (s.writeWord a v).wfPhase = s.wfPhase := rfl
@[simp] theorem State.writeWord_wfW (s : State) (a v : Word) : (s.writeWord a v).wfW = s.wfW := rfl
@[simp] theorem State.writeWord_wfS (s : State) (a v : Word) : (s.writeWord a v).wfS = s.wfS := rfl
@[simp] theorem State.writeWord_txIdx (s : State) (a v : Word) : (s.writeWord a v).txIdx = s.txIdx := rfl
@[simp] theorem State.writeWord_stayReq (s : State) (a v : Word) : (s.writeWord a v).stayReq = s.stayReq := rfl
@[simp] theorem State.writeWord_appWord (s : State) (a v : Word) : (s.writeWord a v).appWord = s.appWord := rfl
@[simp] theorem State.writeWord_env (s : State) (a v : Word) : (s.writeWord a v).env = { s.env with trace := s.env.trace ++ [Event.fc (.writeWord a v)] }.applyWrite a.toNat v := rfl

@[simp] theorem State.giveTurn_fst (s : State) (t : Turn) : (s.giveTurn t).fst = s.fst := rfl
@[simp] theorem State.giveTurn_top (s : State) (t : Turn) : (s.giveTurn t).top = s.top := rfl
@[simp] theorem State.giveTurn_pkt (s : State) (t : Turn) : (s.giveTurn t).pkt = s.pkt := rfl
@[simp] theorem State.giveTurn_rxCount (s : State) (t : Turn) : (s.giveTurn t).rxCount = s.rxCount := rfl
@[simp] theorem State.giveTurn_ckA (s : State) (t : Turn) : (s.giveTurn t).ckA = s.ckA := rfl
@[simp] theorem State.giveTurn_ckB (s : State) (t : Turn) : (s.giveTurn t).ckB = s.ckB := rfl
@[simp] theorem State.giveTurn_ckOk (s : State) (t : Turn) : (s.giveTurn t).ckOk = s.ckOk := rfl
@[simp] theorem State.giveTurn_replyRequired (s : State) (t : Turn) : (s.giveTurn t).replyRequired = s.replyRequired := rfl
@[simp] theorem State.giveTurn_rxq (s : State) (t : Turn) : (s.giveTurn t).rxq = s.rxq := rfl
@[simp] theorem State.giveTurn_stage (s : State) (t : Turn) : (s.giveTurn t).stage = s.stage := rfl
@[simp] theorem State.giveTurn_wfFpage (s : State) (t : Turn) : (s.giveTurn t).wfFpage = s.wfFpage := rfl
@[simp] theorem State.giveTurn_wfN (s : State) (t : Turn) : (s.giveTurn t).wfN = s.wfN := rfl
@[simp] theorem State.giveTurn_wfBpage (s : State) (t : Turn) : (s.giveTurn t).wfBpage = s.wfBpage := rfl
@[simp] theorem State.giveTurn_wfI (s : State) (t : Turn) : (s.giveTurn t).wfI = s.wfI := rfl
@[simp] theorem State.giveTurn_wfAddr (s : State) (t : Turn) : (s.giveTurn t).wfAddr = s.wfAddr := rfl
@[simp] theorem State.giveTurn_wfPhase (s : State) (t : Turn) : (s.giveTurn t).wfPhase = s.wfPhase := rfl
@[simp] theorem State.giveTurn_wfW (s : State) (t : Turn) : (s.giveTurn t).wfW = s.wfW := rfl
@[simp] theorem State.giveTurn_wfS (s : State) (t : Turn) : (s.giveTurn t).wfS = s.wfS := rfl
@[simp] theorem State.giveTurn_txIdx (s : State) (t : Turn) : (s.giveTurn t).txIdx = s.txIdx := rfl
@[simp] theorem State.giveTurn_stayReq (s : State) (t : Turn) : (s.giveTurn t).stayReq = s.stayReq := rfl
@[simp] theorem State.giveTurn_appWord (s : State) (t : Turn) : (s.giveTurn t).appWord = s.appWord := rfl
@[simp] theorem State.giveTurn_env (s : State) (t : Turn) : (s.giveTurn t).env = { s.env with turns := t :: s.env.turns } := rfl

@[simp] theorem State.hardwareReset_fst (s : State) : s.hardwareReset.fst = State.reset.fst := rfl
@[simp] theorem State.hardwareReset_top (s : State) : s.hardwareReset.top = State.reset.top := rfl
@[simp] theorem State.hardwareReset_pkt (s : State) : s.hardwareReset.pkt = State.reset.pkt := rfl
@[simp] theorem State.hardwareReset_rxCount (s : State) : s.hardwareReset.rxCount = State.reset.rxCount := rfl
@[simp] theorem State.hardwareReset_ckA (s : State) : s.hardwareReset.ckA = State.reset.ckA := rfl
@[simp] theorem State.hardwareReset_ckB (s : State) : s.hardwareReset.ckB = State.reset.ckB := rfl
@[simp] theorem State.hardwareReset_ckOk (s : State) : s.hardwareReset.ckOk = State.reset.ckOk := rfl
@[simp] theorem State.hardwareReset_replyRequired (s : State) : s.hardwareReset.replyRequired = State.reset.replyRequired := rfl
@[simp] theorem State.hardwareReset_rxq (s : State) : s.hardwareReset.rxq = State.reset.rxq := rfl
@[simp] theorem State.hardwareReset_stage (s : State) : s.hardwareReset.stage = State.reset.stage := rfl
@[simp] theorem State.hardwareReset_wfFpage (s : State) : s.hardwareReset.wfFpage = State.reset.wfFpage := rfl
@[simp] theorem State.hardwareReset_wfN (s : State) : s.hardwareReset.wfN = State.reset.wfN := rfl
@[simp] theorem State.hardwareReset_wfBpage (s : State) : s.hardwareReset.wfBpage = State.reset.wfBpage := rfl
@[simp] theorem State.hardwareReset_wfI (s : State) : s.hardwareReset.wfI = State.reset.wfI := rfl
@[simp] theorem State.hardwareReset_wfAddr (s : State) : s.hardwareReset.wfAddr = State.reset.wfAddr := rfl
@[simp] theorem State.hardwareReset_wfPhase (s : State) : s.hardwareReset.wfPhase = State.reset.wfPhase := rfl
@[simp] theorem State.hardwareReset_wfW (s : State) : s.hardwareReset.wfW = State.reset.wfW := rfl
@[simp] theorem State.hardwareReset_wfS (s : State) : s.hardwareReset.wfS = State.reset.wfS := rfl
@[simp] theorem State.hardwareReset_txIdx (s : State) : s.hardwareReset.txIdx = State.reset.txIdx := rfl
@[simp] theorem State.hardwareReset_stayReq (s : State) : s.hardwareReset.stayReq = State.reset.stayReq := rfl
@[simp] theorem State.hardwareReset_appWord (s : State) : s.hardwareReset.appWord = State.reset.appWord := rfl
@[simp] theorem State.hardwareReset_env (s : State) : s.hardwareReset.env = s.env := rfl

@[simp] theorem State.finishCommand_true_fst (s : State) : (s.finishCommand true).fst = s.fst := rfl
@[simp] theorem State.finishCommand_true_top (s : State) : (s.finishCommand true).top = Top.send := rfl
@[simp] theorem State.finishCommand_true_pkt (s : State) : (s.finishCommand true).pkt = s.pkt := rfl
@[simp] theorem State.finishCommand_true_rxCount (s : State) : (s.finishCommand true).rxCount = s.rxCount := rfl
@[simp] theorem State.finishCommand_true_ckA (s : State) : (s.finishCommand true).ckA = s.ckA := rfl
@[simp] theorem State.finishCommand_true_ckB (s : State) : (s.finishCommand true).ckB = s.ckB := rfl
@[simp] theorem State.finishCommand_true_ckOk (s : State) : (s.finishCommand true).ckOk = s.ckOk := rfl
@[simp] theorem State.finishCommand_true_replyRequired (s : State) : (s.finishCommand true).replyRequired = true := rfl
@[simp] theorem State.finishCommand_true_rxq (s : State) : (s.finishCommand true).rxq = s.rxq := rfl
@[simp] theorem State.finishCommand_true_stage (s : State) : (s.finishCommand true).stage = s.stage := rfl
@[simp] theorem State.finishCommand_true_wfFpage (s : State) : (s.finishCommand true).wfFpage = s.wfFpage := rfl
@[simp] theorem State.finishCommand_true_wfN (s : State) : (s.finishCommand true).wfN = s.wfN := rfl
@[simp] theorem State.finishCommand_true_wfBpage (s : State) : (s.finishCommand true).wfBpage = s.wfBpage := rfl
@[simp] theorem State.finishCommand_true_wfI (s : State) : (s.finishCommand true).wfI = s.wfI := rfl
@[simp] theorem State.finishCommand_true_wfAddr (s : State) : (s.finishCommand true).wfAddr = s.wfAddr := rfl
@[simp] theorem State.finishCommand_true_wfPhase (s : State) : (s.finishCommand true).wfPhase = s.wfPhase := rfl
@[simp] theorem State.finishCommand_true_wfW (s : State) : (s.finishCommand true).wfW = s.wfW := rfl
@[simp] theorem State.finishCommand_true_wfS (s : State) : (s.finishCommand true).wfS = s.wfS := rfl
@[simp] theorem State.finishCommand_true_txIdx (s : State) : (s.finishCommand true).txIdx = 0 := rfl
@[simp] theorem State.finishCommand_true_stayReq (s : State) : (s.finishCommand true).stayReq = s.stayReq := rfl
@[simp] theorem State.finishCommand_true_appWord (s : State) : (s.finishCommand true).appWord = s.appWord := rfl
@[simp] theorem State.finishCommand_true_env (s : State) : (s.finishCommand true).env = s.env := rfl

@[simp] theorem State.finishCommand_false_fst (s : State) : (s.finishCommand false).fst = s.fst := rfl
@[simp] theorem State.finishCommand_false_top (s : State) : (s.finishCommand false).top = Top.poll := rfl
@[simp] theorem State.finishCommand_false_pkt (s : State) : (s.finishCommand false).pkt = s.pkt := rfl
@[simp] theorem State.finishCommand_false_rxCount (s : State) : (s.finishCommand false).rxCount = s.rxCount := rfl
@[simp] theorem State.finishCommand_false_ckA (s : State) : (s.finishCommand false).ckA = s.ckA := rfl
@[simp] theorem State.finishCommand_false_ckB (s : State) : (s.finishCommand false).ckB = s.ckB := rfl
@[simp] theorem State.finishCommand_false_ckOk (s : State) : (s.finishCommand false).ckOk = s.ckOk := rfl
@[simp] theorem State.finishCommand_false_replyRequired (s : State) : (s.finishCommand false).replyRequired = false := rfl
@[simp] theorem State.finishCommand_false_rxq (s : State) : (s.finishCommand false).rxq = s.rxq := rfl
@[simp] theorem State.finishCommand_false_stage (s : State) : (s.finishCommand false).stage = s.stage := rfl
@[simp] theorem State.finishCommand_false_wfFpage (s : State) : (s.finishCommand false).wfFpage = s.wfFpage := rfl
@[simp] theorem State.finishCommand_false_wfN (s : State) : (s.finishCommand false).wfN = s.wfN := rfl
@[simp] theorem State.finishCommand_false_wfBpage (s : State) : (s.finishCommand false).wfBpage = s.wfBpage := rfl
@[simp] theorem State.finishCommand_false_wfI (s : State) : (s.finishCommand false).wfI = s.wfI := rfl
@[simp] theorem State.finishCommand_false_wfAddr (s : State) : (s.finishCommand false).wfAddr = s.wfAddr := rfl
@[simp] theorem State.finishCommand_false_wfPhase (s : State) : (s.finishCommand false).wfPhase = s.wfPhase := rfl
@[simp] theorem State.finishCommand_false_wfW (s : State) : (s.finishCommand false).wfW = s.wfW := rfl
@[simp] theorem State.finishCommand_false_wfS (s : State) : (s.finishCommand false).wfS = s.wfS := rfl
@[simp] theorem State.finishCommand_false_txIdx (s : State) : (s.finishCommand false).txIdx = s.txIdx := rfl
@[simp] theorem State.finishCommand_false_stayReq (s : State) : (s.finishCommand false).stayReq = s.stayReq := rfl
@[simp] theorem State.finishCommand_false_appWord (s : State) : (s.finishCommand false).appWord = s.appWord := rfl
@[simp] theorem State.finishCommand_false_env (s : State) : (s.finishCommand false).env = s.env := rfl

end Sys2Proof.Machine
end

