-- ==== Sys2Proof/Laws/Ops.lean ====
section
/-! SUPPORT. One lemma per shared operation that says everything it can do, for the proofs to cite instead of
unfolding it. -/

namespace Sys2Proof.Machine

theorem whenEnabled_true {k : Result} : whenEnabled true k = k := rfl

theorem whenEnabled_false {k : Result} : whenEnabled false k = .refused .notEnabled := rfl

/-- A guarded operation that answers a next state was enabled. -/
theorem whenEnabled_next {b : Bool} {k : Result} {t : State} (h : whenEnabled b k = .next t) :
    b = true ∧ k = .next t := by
  cases b
  · exact absurd h (by simp [whenEnabled])
  · exact ⟨rfl, h⟩

@[simp] theorem andThen_next (s : State) (k : State → Result) : andThen (.next s) k = k s := rfl

/-- Two operations in a row answer a next state exactly if both do. -/
theorem andThen_eq_next {r : Result} {k : State → Result} {t : State} :
    andThen r k = .next t ↔ ∃ s, r = .next s ∧ k s = .next t := by
  cases r <;> simp [andThen]

/-- A byte-step is taken where CORE polls and `fst` selects it. -/
theorem byteStepAt_enabled {f : Fst} {s : State} {r : Result} (h : s.top = .poll) (hf : s.fst = f) :
    byteStepAt f s r = r := by
  simp [byteStepAt, whenEnabled, h, hf]

/-- A byte-step that answers a next state was selected. -/
theorem byteStepAt_next {f : Fst} {s t : State} {r : Result} (h : byteStepAt f s r = .next t) :
    s.top = .poll ∧ s.fst = f ∧ r = .next t := by
  obtain ⟨h1, h2⟩ := whenEnabled_next h
  simp only [Bool.and_eq_true, decide_eq_true_eq] at h1
  exact ⟨h1.1, h1.2, h2⟩

/-- A command is taken where a packet waits to be dispatched. -/
theorem dispatching_enabled {s : State} {r : Result} (h : s.top = .dispatch) : dispatching s r = r := by
  simp [dispatching, whenEnabled, h]

/-- A command that answers a next state found a packet waiting. -/
theorem dispatching_next {s t : State} {r : Result} (h : dispatching s r = .next t) :
    s.top = .dispatch ∧ r = .next t := by
  obtain ⟨h1, h2⟩ := whenEnabled_next h
  exact ⟨of_decide_eq_true h1, h2⟩

/-- A transfer to STAGE happens exactly inside one page, and then reads back byte by byte. -/
theorem stageWrite_eq_some {s t : State} {page a : Nat} {bytes : List Byte} :
    s.stageWrite page a bytes = some t ↔
      (page < nBufPages ∧ a + bytes.length ≤ pageSize) ∧
        t = s.setStage (s.stage.writeBytes stageDefault (pageSize * page + a) bytes) := by
  unfold State.stageWrite
  split
  · rename_i h; simp [h, eq_comm]
  · rename_i h; simp [h]

theorem stageByte_eq_some {s : State} {page a : Nat} {v : Byte} :
    s.stageByte page a = some v ↔
      (page < nBufPages ∧ a < pageSize) ∧ v = s.stage.read stageDefault (pageSize * page + a) := by
  unfold State.stageByte
  split
  · rename_i h; simp [h, eq_comm]
  · rename_i h; simp [h]

theorem stageWord_eq_some {s : State} {page w : Nat} {v : Word} :
    s.stageWord page w = some v ↔
      (page < nBufPages ∧ 4 * w + 3 < pageSize) ∧
        v = s.stage.readWord stageDefault (pageSize * page + 4 * w) := by
  unfold State.stageWord
  split
  · rename_i h; simp [h, eq_comm]
  · rename_i h; simp [h]

/-- A poll that is answered "busy" changes nothing but the record of it. -/
theorem pollBusy_busy {s : State} (h : s.env.fcBusy = true) (k : State → State) :
    s.pollBusy k = s.emit (.fc (.isBusy true)) := by
  simp [State.pollBusy, h]

/-- A poll that is answered "not busy" lets the sequencer go on. -/
theorem pollBusy_idle {s : State} (h : s.env.fcBusy = false) (k : State → State) :
    s.pollBusy k = k (s.emit (.fc (.isBusy false))) := by
  simp [State.pollBusy, h]

/-- What each error class does (60_exceptions.md R161 to R167, 42_commands.md R126). -/
theorem raise_cases (s : State) (c : ErrorClass) :
    s.raise c =
      match c with
      | .badSync => if s.fst = .waitSync1 then { s with rxCount := 0 } else { s with fst := .waitSync1 }
      | .checksumMismatch =>
        { s with fst := .waitSync1, env := { s.env with trace := s.env.trace ++ [.diag .checksumFail] } }
      | .overLength => { s with fst := .waitSync1 }
      | .ignored => { s with replyRequired := false, top := .poll }
      | .boundsViolation =>
        { s with
          replyRequired := false, top := .poll,
          env := { s.env with trace := s.env.trace ++ [.diag .boundsViolation] } }
      | .queueOverflow => s
      | .hang => s
      | .stageIndexFault =>
        { s with top := .fault, env := { s.env with trace := s.env.trace ++ [.diag .stageIndexFault] } } := by
  cases c <;> rfl

/-- What the dispatcher's return does (42_commands.md R124). -/
theorem finishCommand_cases (s : State) (reply : Bool) :
    s.finishCommand reply =
      match reply with
      | true => { s with replyRequired := true, top := .send, txIdx := 0 }
      | false => { s with replyRequired := false, top := .poll } := by
  cases reply <;> rfl

/-- The next word, or the next page of the loop, after the wait that follows a word. -/
theorem afterWord_cases (s : State) :
    (s.wfW = 255 ∧ s.afterWord = { s with wfI := s.wfI + 1, wfPhase := .head }) ∨
    (s.wfW ≠ 255 ∧ s.afterWord = { s with wfW := s.wfW + 1, wfPhase := .pWord }) := by
  unfold State.afterWord
  split
  · rename_i h; exact .inl ⟨h, rfl⟩
  · rename_i h; exact .inr ⟨h, rfl⟩

/-- A configuration write records the operation and lets the array answer. -/
theorem configure_eq (s : State) (c : FcConfig) :
    s.configure c =
      { s with
        env := { s.env with
          trace := s.env.trace ++ [.fc (.configure c)], fcConfig := some c, flash := (s.env.applyConfig c).flash } } := rfl

/-- A word write records the operation and lets the array answer. -/
theorem writeWord_eq (s : State) (addr v : Word) :
    s.writeWord addr v =
      { s with
        env := { s.env with
          trace := s.env.trace ++ [.fc (.writeWord addr v)]
          flash := (s.env.applyWrite addr.toNat v).flash, freeCount := (s.env.applyWrite addr.toNat v).freeCount } } := by
  unfold State.writeWord Env.applyWrite
  by_cases h : s.env.programs addr.toNat = true
  · have h' : (s.emit (.fc (.writeWord addr v))).env.programs addr.toNat = true := h
    simp only [h, h', if_true]; rfl
  · have h' : ¬ (s.emit (.fc (.writeWord addr v))).env.programs addr.toNat = true := h
    simp only [if_neg h, if_neg h']; rfl

/-- The sector lookup's choice for a page. -/
theorem beginPage_cases (s : State) (addr : Word) :
    (∃ i, sectorIndex addr = some i ∧
      s.beginPage addr = { s with wfAddr := addr, wfS := BitVec.ofNat 4 i, wfPhase := .eWait1 }) ∨
    (sectorIndex addr = none ∧ s.beginPage addr = { s with wfAddr := addr, wfPhase := .pWait1 }) := by
  unfold State.beginPage
  cases h : sectorIndex addr with
  | some i => exact .inl ⟨i, rfl, rfl⟩
  | none => exact .inr ⟨rfl, rfl⟩

/-- A sector index is below 12. -/
theorem sectorIndex_lt {addr : Word} {i : Nat} (h : sectorIndex addr = some i) : i < 12 := by
  have := (List.findIdx?_eq_some_iff_getElem.1 h).1
  simpa [sectorMap] using this

/-- A configuration write keeps the canonical form of the array. -/
theorem applyConfig_wf {e : Env} (c : FcConfig) (h : Memory.wf flashDefault e.flash = true) :
    Memory.wf flashDefault (e.applyConfig c).flash = true := by
  unfold Env.applyConfig
  dsimp only
  split
  · exact Memory.wf_clear _ _ h
  · exact h

/-- A word write keeps the canonical form of the array. -/
theorem applyWrite_wf {e : Env} (a : Nat) (v : Word) (h : Memory.wf flashDefault e.flash = true) :
    Memory.wf flashDefault (e.applyWrite a v).flash = true := by
  unfold Env.applyWrite
  split
  · exact Memory.wf_writeWord _ _ h
  · exact Memory.wf_writeWord _ _ h

/-- A configuration write touches the array and the record written last. -/
theorem applyConfig_eq (e : Env) (c : FcConfig) :
    e.applyConfig c = { e with fcConfig := some c, flash := (e.applyConfig c).flash } := rfl

/-- The program record changes no byte of the array. -/
theorem applyConfig_programCfg (e : Env) : e.applyConfig programCfg = { e with fcConfig := some programCfg } := by
  unfold Env.applyConfig
  rw [if_neg (by decide)]

/-- The erase record of one of the twelve sectors clears exactly that sector. -/
theorem applyConfig_eraseCfg_flash (e : Env) (sec : BitVec 4) :
    (e.applyConfig (eraseCfg sec)).flash =
      if sec.toNat < 12 then e.flash.clear (sectorStart sec.toNat) (sectorEnd sec.toNat) else e.flash := by
  by_cases h : sec.toNat < 12
  · rw [if_pos h]; exact if_pos ⟨rfl, h⟩
  · rw [if_neg h]; exact if_neg (fun g => h g.2)

/-- A word write touches the array and the count of free values. -/
theorem applyWrite_eq (e : Env) (a : Nat) (v : Word) :
    e.applyWrite a v =
      { e with flash := (e.applyWrite a v).flash, freeCount := (e.applyWrite a v).freeCount } := by
  unfold Env.applyWrite
  split <;> rfl

end Sys2Proof.Machine
end

