-- ==== Sys2Proof/Laws/Run.lean ====
section
/-! SUPPORT. Runs of several steps, step by step and in two parts; and the step by whose turn it is. -/

namespace Sys2Proof.Machine

@[simp] theorem run_zero (s : State) : Sys2Proof.core.run 0 s = .next s := rfl

/-- A run goes on after a step that answers a next state. -/
theorem run_succ_of_step {s t : State} (h : step s = .next t) (k : Nat) :
    Sys2Proof.core.run (k + 1) s = Sys2Proof.core.run k t := by
  have h' : Sys2Proof.core.step s = .next t := h
  simp only [Host.Core.run, h']

/-- A run that answers a next state began with a step that does. -/
theorem run_succ_next {s t : State} {k : Nat} (h : Sys2Proof.core.run (k + 1) s = .next t) :
    ∃ u, step s = .next u ∧ Sys2Proof.core.run k u = .next t := by
  simp only [Host.Core.run] at h
  cases hs : Sys2Proof.core.step s with
  | next u => rw [hs] at h; exact ⟨u, hs, h⟩
  | fault r => rw [hs] at h; cases h
  | refused r => rw [hs] at h; cases h

/-- A run in two parts. -/
theorem run_add {k : Nat} {s t : State} (h : Sys2Proof.core.run k s = .next t) (m : Nat) :
    Sys2Proof.core.run (k + m) s = Sys2Proof.core.run m t := by
  induction k generalizing s with
  | zero => cases h; simp
  | succ k ih =>
    obtain ⟨u, hu, hk⟩ := run_succ_next h
    rw [Nat.add_right_comm, run_succ_of_step hu]
    exact ih hk

/-- With no turn listed, a step is CORE's. -/
theorem step_of_no_turns {s : State} (h : s.env.turns = []) : step s = coreStep s := by
  simp [step, h]

/-- With a turn listed, it is taken and leaves the list. -/
theorem step_of_turn {s : State} {t : Turn} {ts : List Turn} (h : s.env.turns = t :: ts) :
    step s = takeTurn t (s.setEnv { s.env with turns := ts }) := by
  simp [step, h]

/-- CORE runs what it fetches. -/
theorem coreStep_of_fetch {s : State} {i : Instr} (h : fetch s = some i) : coreStep s = exec i s.consume := by
  simp [coreStep, h]

/-- What a step of CORE can be: nothing in App and Fault, else the instruction that is fetched. -/
theorem coreStep_cases (s : State) :
    ((s.top = .app ∨ s.top = .fault) ∧ coreStep s = .next s) ∨
    (∃ i, fetch s = some i ∧ coreStep s = exec i s.consume) := by
  cases hf : fetch s with
  | some i => exact .inr ⟨i, rfl, coreStep_of_fetch hf⟩
  | none =>
    refine .inl ⟨?_, by simp [coreStep, hf]⟩
    unfold fetch at hf
    split at hf <;> rename_i h
    · cases hf
    · exact .inl h
    · exact .inr h
    · split at hf <;> cases hf
    · cases hf
    · cases hf
    · split at hf <;> first | cases hf | (split at hf <;> cases hf)

@[simp] theorem State.consume_of_poll {s : State} (h : s.top = .poll) : s.consume = s.setRxq s.rxq.tail := by
  simp [State.consume, h]

@[simp] theorem State.consume_of_not_poll {s : State} (h : s.top ≠ .poll) : s.consume = s := by
  simp [State.consume, h]

end Sys2Proof.Machine
end

