-- ==== Sys2Proof/Laws/Dispatch.lean ====
section
/-! SUPPORT. What one step of CORE can do in Dispatch and in Flash, said once. -/

namespace Sys2Proof.Machine

/-- The instruction that a packet decodes to: by admission, then by the opcode. -/
theorem decodePacket_cases (p : Packet) :
    (p.cmd 0 = 0x10 ∧ decodePacket p = .getinfo (p.byte 0) (p.valid.drop 3)) ∨
    (p.cmd 0 = 0x12 ∧ decodePacket p = .getmapping (p.byte 0) (p.valid.drop 3)) ∨
    (p.cmd 0 = 0x14 ∧
      decodePacket p = .loadbuffer (p.byte 0) p.length.toNat (p.cmd16 1) (p.cmd16 3) (p.valid.drop lbHeader)) ∨
    (p.cmd 0 = 0x15 ∧ decodePacket p = .readbuffer (p.byte 0) (p.valid.drop 3)) ∨
    (p.cmd 0 = 0x18 ∧
      decodePacket p =
        .writeflash (p.byte 0) p.length.toNat (p.cmd16 1) (p.cmd16 3) (p.cmd16 5) (p.valid.drop 9)) ∨
    (p.cmd 0 = 0x19 ∧ decodePacket p = .flashstatus (p.byte 0) (p.valid.drop 3)) ∨
    (p.cmd 0 = 0x1C ∧ decodePacket p = .readflash (p.byte 0) (p.valid.drop 3)) ∨
    (p.admitted = true ∧ decodePacket p = .defaultArm (p.byte 0) (p.cmd 0) (p.valid.drop 3)) ∨
    (p.admitted = false ∧ decodePacket p = .ignored p.valid) := by
  by_cases ha : p.admitted = true
  · rw [decodePacket, if_pos ha, decodeCommand]
    by_cases h1 : p.cmd 0 = 0x10
    · rw [if_pos h1]; exact .inl ⟨h1, rfl⟩
    rw [if_neg h1]
    by_cases h2 : p.cmd 0 = 0x12
    · rw [if_pos h2]; exact .inr (.inl ⟨h2, rfl⟩)
    rw [if_neg h2]
    by_cases h3 : p.cmd 0 = 0x14
    · rw [if_pos h3]; exact .inr (.inr (.inl ⟨h3, rfl⟩))
    rw [if_neg h3]
    by_cases h4 : p.cmd 0 = 0x15
    · rw [if_pos h4]; exact .inr (.inr (.inr (.inl ⟨h4, rfl⟩)))
    rw [if_neg h4]
    by_cases h5 : p.cmd 0 = 0x18
    · rw [if_pos h5]; exact .inr (.inr (.inr (.inr (.inl ⟨h5, rfl⟩))))
    rw [if_neg h5]
    by_cases h6 : p.cmd 0 = 0x19
    · rw [if_pos h6]; exact .inr (.inr (.inr (.inr (.inr (.inl ⟨h6, rfl⟩)))))
    rw [if_neg h6]
    by_cases h7 : p.cmd 0 = 0x1C
    · rw [if_pos h7]; exact .inr (.inr (.inr (.inr (.inr (.inr (.inl ⟨h7, rfl⟩))))))
    rw [if_neg h7]
    exact .inr (.inr (.inr (.inr (.inr (.inr (.inr (.inl ⟨ha, rfl⟩)))))))
  · rw [decodePacket, if_neg ha]
    exact .inr (.inr (.inr (.inr (.inr (.inr (.inr (.inr ⟨by simpa using ha, rfl⟩)))))))

/-- The packet that GETINFO builds. -/
theorem execGetinfo_eq {s : State} (h : s.top = .dispatch) :
    ∃ p : Packet, execGetinfo s = .next ((s.setPkt p).finishCommand true) ∧ p.type = s.pkt.type ∧
      p.length = infoReplyLen ∧ ∀ i, i < 3 → p.byte i = s.pkt.byte i := by
  refine ⟨_, dispatching_enabled h, ?_, rfl, fun i hi => ?_⟩
  · simp only [Packet.putCmd_type]
  · rw [Packet.byte_withLength, Packet.byte_putCmd _ _ _ _ (by omega), if_neg (by omega),
      Packet.byte_putCmd _ _ _ _ (by omega), if_neg (by omega)]

/-- The packet that GETMAPPING builds. -/
theorem execGetmapping_eq {s : State} (h : s.top = .dispatch) :
    ∃ p : Packet, execGetmapping s = .next ((s.setPkt p).finishCommand false) ∧ p.type = s.pkt.type ∧
      p.length = mapReplyLen ∧ ∀ i, i < 3 → p.byte i = s.pkt.byte i := by
  refine ⟨_, dispatching_enabled h, ?_, rfl, fun i hi => ?_⟩
  · simp only [Packet.putCmd_type]
  · rw [Packet.byte_withLength, Packet.byte_putCmd _ _ _ _ (by omega), if_neg (by omega)]

/-- A status reply changes the length and the two status bytes. -/
theorem statusReply_eq (p : Packet) :
    (Packet.statusReply p).type = p.type ∧ (Packet.statusReply p).length = statusReplyLen ∧
      ∀ i, i < 3 → (Packet.statusReply p).byte i = p.byte i := by
  refine ⟨Packet.putCmd_type _ _ _, rfl, fun i hi => ?_⟩
  rw [Packet.statusReply, Packet.byte_withLength, Packet.byte_putCmd _ _ _ _ (by omega), if_neg (by omega)]

/-- What the dispatch of a packet can do: build a reply that is sent or not, store data, start a WRITEFLASH, report
a bounds violation, or nothing. -/
theorem dispatch_cases {s t : State} (hd : s.top = .dispatch) (h : coreStep s = .next t) :
    (∃ p : Packet, p.type = s.pkt.type ∧ (∀ i, i < 3 → p.byte i = s.pkt.byte i) ∧
      ((∃ lead e, decodePacket s.pkt = .getinfo lead e) ∧ p.length = infoReplyLen ∧
          t = (s.setPkt p).finishCommand true ∨
       (∃ lead e, decodePacket s.pkt = .flashstatus lead e) ∧ p.length = statusReplyLen ∧
          t = (s.setPkt p).finishCommand true ∨
       (∃ lead e, decodePacket s.pkt = .getmapping lead e) ∧ p.length = mapReplyLen ∧
          t = (s.setPkt p).finishCommand false)) ∨
    (∃ lead len page addr data, decodePacket s.pkt = .loadbuffer lead len page addr data ∧
      ((∃ u, s.stageWrite page.toNat addr.toNat data = some u ∧ t = u.finishCommand false) ∨
       t = s.raise .boundsViolation)) ∨
    (∃ lead len b f n e, decodePacket s.pkt = .writeflash lead len b f n e ∧
      t = { s with top := .flash, wfBpage := b, wfFpage := f, wfN := n, wfI := 0, wfPhase := .head }) ∨
    t = s.raise .ignored := by
  have hf : fetch s = some (decodePacket s.pkt) := by simp [fetch, hd]
  rw [coreStep_of_fetch hf, State.consume_of_not_poll (by simp [hd])] at h
  have inj : ∀ {u : State}, (Host.Outcome.next u : Result) = .next t → u = t := fun h => by cases h; rfl
  rcases decodePacket_cases s.pkt with ⟨_, hi⟩ | ⟨_, hi⟩ | ⟨_, hi⟩ | ⟨_, hi⟩ | ⟨_, hi⟩ | ⟨_, hi⟩ | ⟨_, hi⟩ | ⟨_, hi⟩ |
    ⟨_, hi⟩ <;> rw [hi] at h
  · obtain ⟨p, hp, h1, h2, h3⟩ := execGetinfo_eq hd
    exact .inl ⟨p, h1, h3, .inl ⟨⟨_, _, hi⟩, h2, (inj (hp.symm.trans h)).symm⟩⟩
  · obtain ⟨p, hp, h1, h2, h3⟩ := execGetmapping_eq hd
    exact .inl ⟨p, h1, h3, .inr (.inr ⟨⟨_, _, hi⟩, h2, (inj (hp.symm.trans h)).symm⟩)⟩
  · obtain ⟨_, h⟩ := dispatching_next h
    refine .inr (.inl ⟨_, _, _, _, _, hi, ?_⟩)
    split at h
    · split at h
      · rename_i u hu
        exact .inl ⟨u, hu, (inj h).symm⟩
      · cases h
    · exact .inr (inj h).symm
  · exact .inr (.inr (.inr (inj (dispatching_next h).2).symm))
  · simp only [exec, execWriteflash, hd] at h
    refine .inr (.inr (.inl ⟨_, _, _, _, _, _, hi, ?_⟩))
    rw [← inj h]
  · obtain ⟨h1, h2, h3⟩ := statusReply_eq s.pkt
    exact .inl ⟨_, h1, h3, .inr (.inl ⟨⟨_, _, hi⟩, h2, (inj (dispatching_next h).2).symm⟩)⟩
  · exact .inr (.inr (.inr (inj (dispatching_next h).2).symm))
  · exact .inr (.inr (.inr (inj (dispatching_next h).2).symm))
  · exact .inr (.inr (.inr (inj (dispatching_next h).2).symm))

/-- What is fetched in Flash, by the phase. -/
theorem fetch_flash {s : State} (h : s.top = .flash) :
    (s.wfPhase = .head ∧ s.wfI.toNat < s.wfN.toNat ∧ s.wfI.toNat < nBufPages ∧
      fetch s = some (.sectorLookup (flashPageAddr (s.wfFpage.toNat + s.wfI.toNat)))) ∨
    (s.wfPhase = .head ∧ ¬ (s.wfI.toNat < s.wfN.toNat ∧ s.wfI.toNat < nBufPages) ∧
      ∃ lead len e, fetch s = some (.writeflash lead len s.wfBpage s.wfFpage s.wfN e)) ∨
    ((s.wfPhase = .eWait1 ∨ s.wfPhase = .eKey1 ∨ s.wfPhase = .eKey2 ∨ s.wfPhase = .eCfg ∨ s.wfPhase = .eWait2) ∧
      fetch s = some (.erase s.wfS)) ∨
    ((s.wfPhase = .pWait1 ∨ s.wfPhase = .pKey1 ∨ s.wfPhase = .pKey2 ∨ s.wfPhase = .pCfg ∨ s.wfPhase = .pWord ∨
        s.wfPhase = .pWaitW) ∧
      fetch s = some (.program s.wfAddr s.wfI)) := by
  cases hp : s.wfPhase
  case head =>
    by_cases hc : s.wfI.toNat < s.wfN.toNat ∧ s.wfI.toNat < nBufPages
    · exact .inl ⟨rfl, hc.1, hc.2, by simp only [fetch, h, hp]; rw [if_pos hc]⟩
    · exact .inr (.inl ⟨rfl, hc, s.pkt.byte 0, s.pkt.length.toNat, s.pkt.valid.drop 9, by
        simp only [fetch, h, hp]; rw [if_neg hc]⟩)
  case eWait1 => exact .inr (.inr (.inl ⟨by simp, by simp only [fetch, h, hp]⟩))
  case eKey1 => exact .inr (.inr (.inl ⟨by simp, by simp only [fetch, h, hp]⟩))
  case eKey2 => exact .inr (.inr (.inl ⟨by simp, by simp only [fetch, h, hp]⟩))
  case eCfg => exact .inr (.inr (.inl ⟨by simp, by simp only [fetch, h, hp]⟩))
  case eWait2 => exact .inr (.inr (.inl ⟨by simp, by simp only [fetch, h, hp]⟩))
  case pWait1 => exact .inr (.inr (.inr ⟨by simp, by simp only [fetch, h, hp]⟩))
  case pKey1 => exact .inr (.inr (.inr ⟨by simp, by simp only [fetch, h, hp]⟩))
  case pKey2 => exact .inr (.inr (.inr ⟨by simp, by simp only [fetch, h, hp]⟩))
  case pCfg => exact .inr (.inr (.inr ⟨by simp, by simp only [fetch, h, hp]⟩))
  case pWord => exact .inr (.inr (.inr ⟨by simp, by simp only [fetch, h, hp]⟩))
  case pWaitW => exact .inr (.inr (.inr ⟨by simp, by simp only [fetch, h, hp]⟩))

theorem next_inj {s t : State} (h : (Host.Outcome.next s : Result) = .next t) : s = t := by
  cases h
  rfl

/-- An erase changes the phase and the environment alone. -/
theorem execErase_frame {sec : BitVec 4} {s t : State} (h : execErase sec s = .next t) :
    s.top = .flash ∧ t = { s with wfPhase := t.wfPhase, env := t.env } := by
  obtain ⟨h1, h⟩ := whenEnabled_next h
  refine ⟨of_decide_eq_true h1, ?_⟩
  have poll : ∀ p, s.pollBusy (fun u => u.setPhase p) =
      { s with
        wfPhase := (s.pollBusy (fun u => u.setPhase p)).wfPhase, env := (s.pollBusy (fun u => u.setPhase p)).env } := by
    intro p
    unfold State.pollBusy
    split <;> rfl
  split at h
  · rw [← next_inj h]; exact poll _
  · rw [← next_inj h]; rfl
  · rw [← next_inj h]; rfl
  · rw [← next_inj h]; rfl
  · rw [← next_inj h]; exact poll _
  · cases h

/-- A program changes the phase, the word and page indices and the environment alone. -/
theorem execProgram_frame {addr : Word} {page : BitVec 4} {s t : State} (h : execProgram addr page s = .next t) :
    s.top = .flash ∧ t = { s with wfPhase := t.wfPhase, wfW := t.wfW, wfI := t.wfI, env := t.env } := by
  obtain ⟨h1, h⟩ := whenEnabled_next h
  refine ⟨of_decide_eq_true h1, ?_⟩
  split at h
  · rw [← next_inj h]
    unfold State.pollBusy
    split <;> rfl
  · rw [← next_inj h]; rfl
  · rw [← next_inj h]; rfl
  · rw [← next_inj h]; rfl
  · split at h
    · rw [← next_inj h]; rfl
    · cases h
  · rw [← next_inj h]
    unfold State.pollBusy State.afterWord
    dsimp only
    split
    · rfl
    · split <;> rfl
  · cases h

/-- What a step of CORE in Flash can do: go on in the page loop, halt at index 10, or build the reply. -/
theorem flash_cases {s t : State} (hf : s.top = .flash) (h : coreStep s = .next t) :
    (t = { s with
        wfPhase := t.wfPhase, wfW := t.wfW, wfI := t.wfI, wfS := t.wfS, wfAddr := t.wfAddr, env := t.env }) ∨
    (s.wfPhase = .head ∧ s.wfI.toNat < s.wfN.toNat ∧ nBufPages ≤ s.wfI.toNat ∧ t = s.raise .stageIndexFault) ∨
    (s.wfPhase = .head ∧ s.wfN.toNat ≤ s.wfI.toNat ∧
      t = (s.setPkt (Packet.statusReply s.pkt)).finishCommand true) := by
  have hc : s.consume = s := State.consume_of_not_poll (by simp [hf])
  rcases fetch_flash hf with ⟨h1, h2, h3, h4⟩ | ⟨h1, h2, l, n, e, h4⟩ | ⟨h1, h4⟩ | ⟨h1, h4⟩ <;>
    rw [coreStep_of_fetch h4, hc] at h
  · obtain ⟨_, h⟩ := whenEnabled_next h
    rw [← next_inj h]
    left
    rcases beginPage_cases s (flashPageAddr (s.wfFpage.toNat + s.wfI.toNat)) with ⟨i, _, h⟩ | ⟨_, h⟩ <;> rw [h]
  · simp only [exec, execWriteflash, hf] at h
    obtain ⟨_, h⟩ := whenEnabled_next h
    rw [← next_inj h]
    unfold State.pageLoop
    by_cases hn : s.wfI.toNat < s.wfN.toNat
    · have hi : ¬ s.wfI.toNat < nBufPages := fun hh => h2 ⟨hn, hh⟩
      rw [if_pos hn, if_neg hi]
      exact .inr (.inl ⟨h1, hn, Nat.le_of_not_lt hi, rfl⟩)
    · rw [if_neg hn]
      exact .inr (.inr ⟨h1, Nat.le_of_not_lt hn, rfl⟩)
  · left
    rw [(execErase_frame h).2]
  · left
    rw [(execProgram_frame h).2]

end Sys2Proof.Machine
end

