-- ==== Sys2Proof/Laws/PerInstr.lean ====
section
/-! SUPPORT. Statements about every instruction, one lemma per constructor. -/

namespace Sys2Proof.Laws.EncodedLength

/-- The bytes of a well-formed instruction are at most 38: the longest frame (30_encoding.md R60). -/
def Statement (i : Instr) : Prop := i.wf = true → (encode i).length ≤ 38

theorem frame (t : Byte) (p : List Byte) : Statement (.frame t p) := by
  intro h; simp [Instr.wf, maxPayload] at h; simp [encode, frameBytes]; omega

theorem command_length {e : List Byte} (h : extraFits e = true) (lead op : Byte) :
    (commandBytes lead op e).length ≤ 38 := by
  simp [extraFits, minCmdLen, maxPayload] at h; simp [commandBytes]; omega

theorem getinfo (lead : Byte) (e : List Byte) : Statement (.getinfo lead e) := fun h => command_length h lead _
theorem getmapping (lead : Byte) (e : List Byte) : Statement (.getmapping lead e) := fun h => command_length h lead _

theorem loadbuffer (lead : Byte) (len : Nat) (page address : Half) (data : List Byte) :
    Statement (.loadbuffer lead len page address data) := by
  intro h; simp [Instr.wf, lenFits, maxPayload] at h; simp [encode, List.length_take]; omega

theorem readbuffer (lead : Byte) (e : List Byte) : Statement (.readbuffer lead e) := fun h => command_length h lead _

theorem writeflash (lead : Byte) (len : Nat) (b f n : Half) (e : List Byte) :
    Statement (.writeflash lead len b f n e) := by
  intro h; simp [Instr.wf, lenFits, maxPayload] at h; simp [encode, List.length_take]; omega

theorem flashstatus (lead : Byte) (e : List Byte) : Statement (.flashstatus lead e) := fun h => command_length h lead _
theorem readflash (lead : Byte) (e : List Byte) : Statement (.readflash lead e) := fun h => command_length h lead _

theorem defaultArm (lead op : Byte) (e : List Byte) : Statement (.defaultArm lead op e) := by
  intro h
  simp only [Instr.wf, Bool.and_eq_true] at h
  exact command_length h.2 lead op

theorem ignored (p : List Byte) : Statement (.ignored p) := by
  intro h
  simp only [Instr.wf, Bool.and_eq_true, decide_eq_true_eq, maxPayload] at h
  exact le_trans h.1 (by omega)

theorem stepWaitSync1 (c : Byte) : Statement (.stepWaitSync1 c) := fun _ => Nat.le_of_ble_eq_true rfl
theorem stepWaitSync2 (c : Byte) : Statement (.stepWaitSync2 c) := fun _ => Nat.le_of_ble_eq_true rfl
theorem stepReadType (c : Byte) : Statement (.stepReadType c) := fun _ => Nat.le_of_ble_eq_true rfl
theorem stepReadLength (c : Byte) : Statement (.stepReadLength c) := fun _ => Nat.le_of_ble_eq_true rfl
theorem stepReadPayload (c : Byte) : Statement (.stepReadPayload c) := fun _ => Nat.le_of_ble_eq_true rfl
theorem stepReadChecksumLow (c : Byte) : Statement (.stepReadChecksumLow c) := fun _ => Nat.le_of_ble_eq_true rfl
theorem stepReadChecksumHigh (c : Byte) : Statement (.stepReadChecksumHigh c) := fun _ => Nat.le_of_ble_eq_true rfl
theorem rxqPush (c : Byte) : Statement (.rxqPush c) := fun _ => Nat.le_of_ble_eq_true rfl
theorem rxqPop : Statement .rxqPop := fun _ => Nat.le_of_ble_eq_true rfl
theorem send : Statement .send := fun _ => Nat.le_of_ble_eq_true rfl
theorem sectorLookup (a : Word) : Statement (.sectorLookup a) := fun _ => Nat.le_of_ble_eq_true rfl
theorem erase (s : BitVec 4) : Statement (.erase s) := fun _ => Nat.le_of_ble_eq_true rfl
theorem program (a : Word) (p : BitVec 4) : Statement (.program a p) := fun _ => Nat.le_of_ble_eq_true rfl
theorem boot : Statement .boot := fun _ => Nat.le_of_ble_eq_true rfl

end Sys2Proof.Laws.EncodedLength
end

