-- ==== Sys2Proof/Laws/Receive.lean ====
section
/-! SUPPORT. The receive path in terms of its byte-steps: which byte-step a polled byte takes, and how the bytes of
a burst are received one after another. -/

namespace Sys2Proof.Machine

/-- The rule that `fst` selects is the instruction that the byte decodes to. -/
theorem applyByte_eq (c : Byte) (s : State) : applyByte c s = exec (decodeByte s.fst c) s := by
  unfold applyByte
  cases s.fst <;> rfl

/-- A byte that arrives while CORE polls with an empty queue takes its byte-step at once. -/
theorem receiveByte_poll (c : Byte) (s : State) (h : s.top = .poll) (hq : s.rxq = []) :
    receiveByte c s = exec (decodeByte s.fst c) s := by
  have e : (s.setRxq [c]).setRxq [] = s := by cases s; simp_all [State.setRxq]
  have hp : execRxqPush c s = .next (s.setRxq [c]) := by simp [execRxqPush, hq]
  simp only [receiveByte, hp, andThen_next, State.setRxq_top, h, if_true, execRxqPop, State.setRxq_rxq, whenEnabled,
    decide_true, e]
  exact applyByte_eq c s

/-- A byte that arrives while CORE does not poll is only queued, or lost. -/
theorem receiveByte_not_poll (c : Byte) (s : State) (h : s.top ≠ .poll) :
    receiveByte c s = .next (if s.rxq.length < rxqCap then s.setRxq (s.rxq ++ [c]) else s) := by
  unfold receiveByte execRxqPush
  split <;> simp [h, State.raise]

/-- Receiving two bursts is receiving their concatenation. -/
theorem receiveBytes_append (a b : List Byte) (s : State) :
    receiveBytes (a ++ b) s = andThen (receiveBytes a s) (receiveBytes b) := by
  induction a generalizing s with
  | nil => rfl
  | cons c a ih =>
    simp only [List.cons_append, receiveBytes]
    cases receiveByte c s <;> simp [andThen, ih]

end Sys2Proof.Machine
end

