-- ==== Sys2Proof/Machine/Controller.lean ====
section
/-! DEFINITION. The controller operations as accesses to the controller's registers, for the OPEN parameters
FC_KEY1, FC_KEY2 and FC_LAYOUT (10_state.md R23, 43_flash_sequencer.md R140, R145; log 16). -/

namespace Sys2Proof

/-- One access to the flash hardware. -/
inductive BusAccess where
  | read (addr : Word)
  | write (addr value : Word)
deriving DecidableEq, Repr

/-- The register or array access that a controller operation is (43_flash_sequencer.md R140). -/
def FcOp.busAccess : FcOp → BusAccess
  | .isBusy _ => .read Config.fcStatusRegister
  | .key1 => .write Config.fcKeyRegister Config.fcKey1
  | .key2 => .write Config.fcKeyRegister Config.fcKey2
  | .configure c => .write Config.fcConfigRegister (Config.fcLayout c)
  | .writeWord a v => .write a v

end Sys2Proof
end

