-- ==== Sys2Proof/Tests/Slice0.lean ====
section
/-! SUPPORT. Tests of the model. Expected values come from spec/95_test_vectors.md (the vector is named at each test) or
from the worked examples of the rules; the witnesses at the end show states that meet the statements' hypotheses. -/

open Sys2Proof Sys2Proof.Machine

namespace Sys2Proof.Tests

/-! Helpers. -/

/-- The outcome is a next state of which `p` holds. -/
def nextIs (r : Host.Outcome State Fault Refusal) (p : State → Bool) : Bool :=
  match r with
  | .next t => p t
  | _ => false

/-- The state after reset, with this `top`. -/
def at' (t : Top) : State := { State.reset with top := t }

/-- CORE polls with the framer in `f`, `n` payload bytes stored, and this packet type, length and payload. -/
def framing (f : Fst) (n : BitVec 6) (l : Byte) (payload : List Byte) : State :=
  { at' .poll with
    fst := f, rxCount := n, pkt := { type := 0, length := l, payload := paddedPayload payload, cksum := 0 } }

/-- A packet of this type and payload waits at `top`. -/
def holding (t : Top) (ty : Byte) (payload : List Byte) : State := { at' t with pkt := Packet.ofFrame ty payload }

/-- The sequencer stands at phase `p` of page `i` of `n`, flash page 16 first. -/
def flashing (p : WfPhase) (i : BitVec 4) (n : Half) : State :=
  { holding .flash 0 [0x00, 0xFF, 0x18] with
    wfPhase := p, wfI := i, wfN := n, wfFpage := 16, wfAddr := flashPageAddr (16 + i.toNat), wfS := 1 }

/-- The first 256 bytes of the staging store's page 0 hold DE AD BE EF 01 00 00 80 (V-FS-2). -/
def staged : State := (flashing .pWord 0 1).setStage
  [(0, 0xDE), (1, 0xAD), (2, 0xBE), (3, 0xEF), (4, 0x01), (7, 0x80)]

/-- 32 bytes E0 .. FF (V-RX-3). -/
def ramp : List Byte := (List.range 32).map (fun k => BitVec.ofNat 8 (0xE0 + k))

/-- No event has been observed. -/
def quiet (s : State) : Bool := s.env.trace == []

/-! WellFormed refuses an ill-formed term for each of its checks. -/

theorem wf_refuses_frame_of_33_bytes : (Instr.frame 0 (List.replicate 33 0)).wf = false := by decide
theorem wf_refuses_30_extra_bytes : (Instr.getinfo 0 (List.replicate 30 0)).wf = false := by decide
theorem wf_refuses_length_2 : (Instr.loadbuffer 0 2 0 0 []).wf = false := by decide
theorem wf_refuses_length_33 : (Instr.loadbuffer 0 33 0 0 (List.replicate 26 0)).wf = false := by decide
theorem wf_refuses_field_beyond_length : (Instr.loadbuffer 0 4 256 0 []).wf = false := by decide
theorem wf_refuses_missing_data : (Instr.loadbuffer 0 9 0 0 [1]).wf = false := by decide
theorem wf_refuses_writeflash_missing_extra : (Instr.writeflash 0 10 0 0 0 []).wf = false := by decide
theorem wf_refuses_writeflash_field_beyond_length : (Instr.writeflash 0 7 0 0 1 []).wf = false := by decide
theorem wf_refuses_named_opcode_as_default : (Instr.defaultArm 0 0x10 []).wf = false := by decide
theorem wf_refuses_admissible_as_ignored : (Instr.ignored [0x00, 0xFF, 0x10]).wf = false := by decide
theorem wf_refuses_ignored_of_33_bytes : (Instr.ignored (List.replicate 33 0)).wf = false := by decide
theorem wf_refuses_sector_12 : (Instr.erase 12).wf = false := by decide
theorem wf_refuses_misaligned_program : (Instr.program 0x08004002 0).wf = false := by decide
theorem wf_refuses_staging_page_10 : (Instr.program 0x08004000 10).wf = false := by decide

/-! Decoding: a word for every constructor that has an encoding, written out from 30_encoding.md. -/

/-- V-CK-10. -/
theorem decode_frame :
    decode .wire [0xBC, 0xCF, 0x01, 0x02, 0xBC, 0xCF, 0x8E, 0x51] = .ok (.frame 0x01 [0xBC, 0xCF], []) := by decide
/-- V-RX-3: the longest frame. -/
theorem decode_longest_frame :
    decode .wire ([0xBC, 0xCF, 0x7F, 0x20] ++ ramp ++ [0x8F, 0x4E]) = .ok (.frame 0x7F ramp, []) := by decide
theorem decode_bad_sync : decode .wire [0xBD, 0xCF, 0x00, 0x00, 0x00, 0x00] = .error .badSync := by decide
/-- V-RX-10. -/
theorem decode_over_length : decode .wire [0xBC, 0xCF, 0x00, 0x21] = .error .overLength := by decide
/-- V-RX-9, the truncated frame alone. -/
theorem decode_truncated : decode .wire [0xBC, 0xCF, 0x00, 0x04, 0x01, 0x02] = .error .truncated := by decide
/-- V-RX-5. -/
theorem decode_wrong_checksum :
    decode .wire [0xBC, 0xCF, 0x00, 0x03, 0x00, 0xFF, 0x10, 0x12, 0x1B] = .error .checksumMismatch := by decide
/-- V-CMD-2. -/
theorem decode_getinfo : decode .command [0xFF, 0xFF, 0x10] = .ok (.getinfo 0xFF [], []) := by decide
/-- V-CMD-4. -/
theorem decode_getmapping : decode .command [0x00, 0xFF, 0x12] = .ok (.getmapping 0x00 [], []) := by decide
/-- V-LB-2. -/
theorem decode_loadbuffer :
    decode .command [0x00, 0xFF, 0x14, 0x00, 0x00, 0xFC, 0x03, 0x01, 0x02, 0x03, 0x04] =
      .ok (.loadbuffer 0x00 11 0 1020 [0x01, 0x02, 0x03, 0x04], []) := by decide
/-- V-CMD-7. -/
theorem decode_readbuffer : decode .command [0x00, 0xFF, 0x15] = .ok (.readbuffer 0x00 [], []) := by decide
/-- V-WF-7. -/
theorem decode_writeflash :
    decode .command [0x00, 0xFF, 0x18, 0x00, 0x00, 0x40, 0x00, 0x0B, 0x00] =
      .ok (.writeflash 0x00 9 0 64 11 [], []) := by decide
/-- V-WF-5: the missing parameters read as zero. -/
theorem decode_short_writeflash :
    decode .command [0x00, 0xFF, 0x18] = .ok (.writeflash 0x00 3 0 0 0 [], []) := by decide
/-- V-CMD-6. -/
theorem decode_flashstatus :
    decode .command [0x07, 0xFF, 0x19, 0x99, 0x98, 0x97] = .ok (.flashstatus 0x07 [0x99, 0x98, 0x97], []) := by decide
/-- V-CMD-8. -/
theorem decode_readflash : decode .command [0x00, 0xFF, 0x1C] = .ok (.readflash 0x00 [], []) := by decide
/-- V-CMD-9. -/
theorem decode_default : decode .command [0x00, 0xFF, 0x11] = .ok (.defaultArm 0x00 0x11 [], []) := by decide
/-- V-CMD-12, V-CMD-14. -/
theorem decode_ignored :
    decode .command [0x00, 0xFF] = .ok (.ignored [0x00, 0xFF], []) ∧
    decode .command [0xFF, 0x00, 0x10] = .ok (.ignored [0xFF, 0x00, 0x10], []) := by decide
theorem decode_over_long_payload : decode .command (List.replicate 33 0) = .error .overLength := by decide
/-- V-RX-1: the nine bytes under the framer states that they meet. -/
theorem decode_byte_steps :
    decode (.byteStep .waitSync1) [0xBC] = .ok (.stepWaitSync1 0xBC, []) ∧
    decode (.byteStep .waitSync2) [0xCF] = .ok (.stepWaitSync2 0xCF, []) ∧
    decode (.byteStep .readType) [0x00] = .ok (.stepReadType 0x00, []) ∧
    decode (.byteStep .readLength) [0x03] = .ok (.stepReadLength 0x03, []) ∧
    decode (.byteStep .readPayload) [0xFF] = .ok (.stepReadPayload 0xFF, []) ∧
    decode (.byteStep .readChecksumLow) [0x12] = .ok (.stepReadChecksumLow 0x12, []) ∧
    decode (.byteStep .readChecksumHigh) [0x1A] = .ok (.stepReadChecksumHigh 0x1A, []) ∧
    decode (.byteStep .readType) [] = .error .truncated := by decide

/-- The words of spec/opcode_table.json. -/
theorem decode_table_words :
    decodeTableWord 16 0xCFBC = some (.frame 0 []) ∧
    decodeTableWord 24 0x10FF00 = some (.getinfo 0 []) ∧ decodeTableWord 24 0x12FF00 = some (.getmapping 0 []) ∧
    decodeTableWord 24 0x14FF00 = some (.loadbuffer 0 3 0 0 []) ∧ decodeTableWord 24 0x15FF00 = some (.readbuffer 0 []) ∧
    decodeTableWord 24 0x18FF00 = some (.writeflash 0 3 0 0 0 []) ∧
    decodeTableWord 24 0x19FF00 = some (.flashstatus 0 []) ∧ decodeTableWord 24 0x1CFF00 = some (.readflash 0 []) ∧
    decodeTableWord 24 0x00FF00 = some (.defaultArm 0 0 []) ∧ decodeTableWord 24 0 = some (.ignored [0, 0, 0]) ∧
    decodeTableWord 8 0xBC = some (.stepWaitSync1 0xBC) ∧ decodeTableWord 8 0xCF = some (.stepWaitSync2 0xCF) := by
  decide

/-- A placed word is what the next step runs. -/
theorem placed_words_run :
    nextIs (step (State.reset.withFetchWord 24 0x10FF00)) (fun t => t.top == .send && t.pkt.byte 23 == 0x10) = true ∧
    nextIs (step (State.reset.withFetchWord 16 0xCFBC)) (fun t => t.top == .dispatch && t.pkt.length == 0) = true ∧
    nextIs (step (State.reset.withFetchWord 8 0xBC)) (fun t => t.fst == .waitSync2 && t.rxq == []) = true ∧
    nextIs (step (State.reset.withFetchWord 8 0xCF)) (fun t => t.fst == .readType) = true := by decide

/-! The instructions. -/

/-- V-CK-11. -/
theorem test_frame_is_yielded :
    nextIs (exec (.frame 0x00 [0xAA]) (at' .poll)) (fun t =>
      t.top == .dispatch && t.pkt.length == 1 && t.pkt.byte 0 == 0xAA && t.pkt.cksum == 0xACAB && quiet t) = true := by
  decide

/-- V-CMD-1. -/
theorem test_getinfo :
    nextIs (exec (.getinfo 0x00 []) (holding .dispatch 0 [0x00, 0xFF, 0x10])) (fun t =>
      t.top == .send && t.pkt.length == 24 &&
      t.pkt.valid ==
        [0x00, 0xFF, 0x10, 0x00, 0x04, 0x0A, 0x00, 0x00, 0x04, 0x10, 0x00, 0, 0, 0, 0, 0, 0, 0, 0, 0, 0, 0, 0, 0x10]) =
      true := by decide

/-- V-CMD-3: the unwritten bytes are the request's. -/
theorem test_getinfo_keeps_request_bytes :
    nextIs (exec (.getinfo 0x00 []) (holding .dispatch 0 ([0x00, 0xFF, 0x10] ++
        (List.range 29).map (fun k => BitVec.ofNat 8 (0xA0 + k))))) (fun t =>
      t.pkt.byte 10 == 0x00 && t.pkt.byte 11 == 0xA8 && t.pkt.byte 22 == 0xB3 && t.pkt.byte 23 == 0x10) = true := by
  decide

/-- S2. -/
theorem test_getmapping :
    nextIs (exec (.getmapping 0x00 []) (holding .dispatch 0 [0x00, 0xFF, 0x12])) (fun t =>
      t.top == .poll && !t.replyRequired && quiet t &&
      t.pkt.valid == [0x00, 0xFF, 0x12, 0x04, 0x10, 0x01, 0x40, 0x07, 0x80]) = true := by decide

/-- V-LB-4: the last byte of the last page. -/
theorem test_loadbuffer_last_byte :
    nextIs (exec (.loadbuffer 0 8 9 1023 [0x5A]) (at' .dispatch)) (fun t =>
      t.stageByte 9 1023 == some 0x5A && t.stageByte 9 1022 == some 0 && t.top == .poll && quiet t) = true := by decide

/-- V-LB-10: the sum does not wrap. -/
theorem test_loadbuffer_no_wrap :
    nextIs (exec (.loadbuffer 0 32 0 0xFFFF (List.replicate 25 1)) (at' .dispatch)) (fun t =>
      t.stage == [] && t.env.trace == [.diag .boundsViolation] && !t.replyRequired) = true := by decide

/-- V-CMD-7. -/
theorem test_readbuffer :
    nextIs (exec (.readbuffer 0x00 []) (at' .dispatch)) (fun t => t.top == .poll && quiet t) = true := by decide

/-- V-WF-1, the dispatch. -/
theorem test_writeflash_starts :
    nextIs (exec (.writeflash 0x00 9 0 16 1 []) (at' .dispatch)) (fun t =>
      t.top == .flash && t.wfFpage == 16 && t.wfN == 1 && t.wfI == 0 && quiet t) = true := by decide

/-- V-WF-7, index 10. -/
theorem test_writeflash_fault :
    nextIs (exec (.writeflash 0x00 9 0 64 11 []) (flashing .head 10 11)) (fun t =>
      t.top == .fault && t.env.trace == [.diag .stageIndexFault]) = true := by decide

/-- V-CMD-6. -/
theorem test_flashstatus :
    nextIs (exec (.flashstatus 0x07 [0x99, 0x98, 0x97])
        (holding .dispatch 0x42 [0x07, 0xFF, 0x19, 0x99, 0x98, 0x97])) (fun t =>
      t.top == .send && t.pkt.type == 0x42 && t.pkt.valid == [0x07, 0xFF, 0x19, 0x01, 0x00]) = true := by decide

/-- V-CMD-8. -/
theorem test_readflash :
    nextIs (exec (.readflash 0x00 []) (at' .dispatch)) (fun t => t.top == .poll && quiet t) = true := by decide

/-- V-CMD-11. -/
theorem test_default :
    nextIs (exec (.defaultArm 0x00 0xFF []) (at' .dispatch)) (fun t => t.top == .poll && quiet t) = true := by decide

/-- V-CMD-13. -/
theorem test_ignored :
    nextIs (exec (.ignored [0x00, 0xFE, 0x10]) (at' .dispatch)) (fun t => t.top == .poll && quiet t) = true := by decide

/-- The example of R83, and the counter's reset. -/
theorem test_waitSync1 :
    nextIs (exec (.stepWaitSync1 0xBC) (framing .waitSync1 3 0 [])) (fun t => t.fst == .waitSync2 && t.rxCount == 3) =
      true ∧
    nextIs (exec (.stepWaitSync1 0x00) (framing .waitSync1 3 0 [])) (fun t => t.fst == .waitSync1 && t.rxCount == 0) =
      true := by decide

/-- V-RX-4, index 1. -/
theorem test_waitSync2_bc :
    nextIs (exec (.stepWaitSync2 0xBC) (framing .waitSync2 0 0 [])) (fun t => t.fst == .waitSync1 && quiet t) = true := by
  decide

/-- V-RX-1, index 2, over an old packet. -/
theorem test_readType_clears :
    nextIs (exec (.stepReadType 0x42) (framing .readType 0 9 [1, 2, 3])) (fun t =>
      t.pkt.type == 0x42 && t.pkt.length == 0 && t.pkt.byte 2 == 0 && t.fst == .readLength) = true := by decide

/-- V-RX-10. -/
theorem test_readLength_bound :
    nextIs (exec (.stepReadLength 0x20) (framing .readLength 5 0 [])) (fun t => t.fst == .readPayload && t.rxCount == 0) =
      true ∧
    nextIs (exec (.stepReadLength 0x21) (framing .readLength 5 0 [])) (fun t =>
      t.fst == .waitSync1 && t.pkt.length == 0x21 && quiet t) = true := by decide

/-- V-RX-1, index 6. -/
theorem test_readPayload_last :
    nextIs (exec (.stepReadPayload 0x10) (framing .readPayload 2 3 [0x00, 0xFF])) (fun t =>
      t.pkt.byte 2 == 0x10 && t.rxCount == 3 && t.fst == .readChecksumLow) = true := by decide

/-- V-RX-1, index 7. -/
theorem test_readChecksumLow :
    nextIs (exec (.stepReadChecksumLow 0x12) (framing .readChecksumLow 3 3 [0x00, 0xFF, 0x10])) (fun t =>
      t.pkt.cksum == 0x0012 && t.fst == .readChecksumHigh) = true := by decide

/-- V-RX-1, index 8, and V-RX-5. -/
theorem test_readChecksumHigh :
    let s := framing .readChecksumHigh 3 3 [0x00, 0xFF, 0x10]
    let s := { s with pkt := { s.pkt with cksum := 0x0012 } }
    nextIs (exec (.stepReadChecksumHigh 0x1A) s) (fun t =>
      t.top == .dispatch && t.ckOk && t.pkt.cksum == 0x1A12 && quiet t) = true ∧
    nextIs (exec (.stepReadChecksumHigh 0x1B) s) (fun t =>
      t.top == .poll && t.fst == .waitSync1 && t.env.trace == [.diag .checksumFail]) = true := by decide

/-- V-RX-13. -/
theorem test_push_at_the_limit :
    nextIs (exec (.rxqPush 0xBC) (at' .fault |>.setRxq (List.replicate 63 0))) (fun t =>
      t.rxq == List.replicate 63 0 ++ [0xBC]) = true ∧
    nextIs (exec (.rxqPush 0xBC) (at' .fault |>.setRxq (List.replicate 64 0))) (fun t =>
      t.rxq == List.replicate 64 0) = true := by decide

/-- V-RX-13 and R81. -/
theorem test_pop :
    nextIs (exec .rxqPop (at' .poll)) (fun t => t == at' .poll) = true ∧
    nextIs (exec .rxqPop (at' .poll |>.setRxq [0xBC, 0xCF])) (fun t => t.fst == .waitSync2 && t.rxq == [0xCF]) = true := by
  decide

/-- V-TX-4: the checksum is computed before the first byte. -/
theorem test_send_first :
    nextIs (exec .send { holding .send 0x42 [0x07, 0xFF, 0x19, 0x01, 0x00] with pkt :=
        { Packet.ofFrame 0x42 [0x07, 0xFF, 0x19, 0x01, 0x00] with cksum := 0 } }) (fun t =>
      t.pkt.cksum == 0x5867 && t.txIdx == 1 && t.env.trace == [.sinkPut 0xBC]) = true := by decide

/-- V-TX-1: its last byte. -/
theorem test_send_last :
    nextIs (exec .send { holding .send 0 [0x00, 0xFF, 0x19, 0x01, 0x00] with txIdx := 10 }) (fun t =>
      t.top == .poll && t.env.trace == [.sinkPut 0x67]) = true := by decide

/-- V-SEC-2 and V-SEC-14. -/
theorem test_sector_lookup :
    nextIs (exec (.sectorLookup 0x08004000) (flashing .head 0 1)) (fun t => t.wfPhase == .eWait1 && t.wfS == 1) = true ∧
    nextIs (exec (.sectorLookup 0x08004400) (flashing .head 0 1)) (fun t => t.wfPhase == .pWait1) = true := by decide

/-- V-FS-1: the configuration write, and a busy answer after the start. -/
theorem test_erase :
    nextIs (exec (.erase 1) (flashing .eCfg 0 1)) (fun t =>
      t.wfPhase == .eWait2 && t.env.trace == [.fc (.configure (eraseCfg 1))]) = true ∧
    nextIs (exec (.erase 1) ((flashing .eWait2 0 1).setEnv { Env.initial with fcBusy := true })) (fun t =>
      t.wfPhase == .eWait2 && t.env.trace == [.fc (.isBusy true)]) = true := by decide

/-- V-FS-2: word 1; after an erase the word reads back (P2). -/
theorem test_program_word :
    nextIs (exec (.program 0x08004000 0)
        { staged with wfW := 1, env := { Env.initial with fcConfig := some programCfg } }) (fun t =>
      t.wfPhase == .pWaitW && t.env.trace == [.fc (.writeWord 0x08004004 0x80000001)] &&
      t.env.flash.readWord flashDefault 0x08004004 == 0x80000001) = true := by decide

/-- The wait after word 255 ends the page (R144). -/
theorem test_program_page_ends :
    nextIs (exec (.program 0x08004000 0) { flashing .pWaitW 0 1 with wfW := 255 }) (fun t =>
      t.wfPhase == .head && t.wfI == 1 && t.env.trace == [.fc (.isBusy false)]) = true := by decide

/-- V-BOOT-3. -/
theorem test_boot_erased : nextIs (exec .boot State.reset) (fun t => t.top == .poll && t.appWord == 0xFFFFFFFF) = true := by
  unfold exec execBoot
  generalize Config.bootPinStayLevel = b
  cases b <;> decide

/-- V-BOOT-2 and V-BOOT-4: bytes 00 00 02 20 at APP_BASE. -/
theorem test_boot_present (stay : Bool) :
    nextIs (exec .boot (State.reset.setEnv { Env.initial with
        bootPin := if stay then Config.bootPinStayLevel else !Config.bootPinStayLevel
        flash := [(0x08004000, 0x00), (0x08004001, 0x00), (0x08004002, 0x02), (0x08004003, 0x20)] })) (fun t =>
      t.top == (if stay then .poll else .app) && t.appWord == 0x20020000 && t.stayReq == stay) = true := by
  unfold exec execBoot
  generalize Config.bootPinStayLevel = b
  cases b <;> cases stay <;> decide

/-! The checksum, the controller, reset. -/

/-- V-CK-2, V-CK-6, V-CK-7, V-CK-8, V-CK-9, V-CK-14, V-CK-15. -/
theorem test_checksum :
    cksum16 0x11 0 [] = 0x2211 ∧ cksum16 0xFF 32 (List.replicate 32 0xFF) = 0xEEFF ∧ cksum16 0x80 1 [0x80] = 0x0201 ∧
    cksum16 0 3 [0x80, 0x55, 0x00] = 0x36D8 ∧ cksum16 0 3 [0x00, 0x55, 0x80] = 0x36D8 ∧
    cksum16 0 32 (0x01 :: List.replicate 31 0) = 0x4021 ∧ cksum16 0 32 (List.replicate 31 0 ++ [0x01]) = 0x2121 := by
  decide

/-- R140: the register or array access that an operation is. -/
theorem test_bus_access :
    FcOp.key1.busAccess = .write Config.fcKeyRegister Config.fcKey1 ∧
    FcOp.key2.busAccess = .write Config.fcKeyRegister Config.fcKey2 ∧
    (FcOp.configure programCfg).busAccess = .write Config.fcConfigRegister (Config.fcLayout programCfg) ∧
    (FcOp.writeWord 0x08004000 7).busAccess = .write 0x08004000 7 ∧
    (FcOp.isBusy true).busAccess = .read Config.fcStatusRegister := ⟨rfl, rfl, rfl, rfl, rfl⟩

/-- V-RST-2: the staging store is cleared, the flash array is kept. -/
theorem test_reset_turn :
    nextIs (step { staged with env := { Env.initial with flash := [(0x08004000, 0xDE)], turns := [.reset] } }) (fun t =>
      t.stageByte 0 0 == some 0 && t.top == .boot && t.env.flash == [(0x08004000, 0xDE)]) = true := by decide

/-- The turns of FC, SINK and the pin. -/
theorem test_environment_turns :
    nextIs (step { at' .app with env := { Env.initial with turns := [.fc true] } }) (fun t => t.env.fcBusy) = true ∧
    nextIs (step { at' .app with env := { Env.initial with turns := [.sink false] } }) (fun t => !t.env.sinkReady) = true ∧
    nextIs (step { at' .app with env := { Env.initial with turns := [.pin true] } }) (fun t => t.env.bootPin) = true := by
  decide

/-! Witnesses: states and operands that meet the hypotheses of the statements in Certificates/Slice0/Obligations.lean,
at the bounds of each clause. `witness_<Name>` is about `Obligations.<Name>`. -/

/-- The turn list is `ts`. -/
def withTurns (ts : List Turn) (s : State) : State := s.setEnv { s.env with turns := ts }

/-- The controller answers "busy". -/
def busy (s : State) : State := s.setEnv { s.env with fcBusy := true }

/-- The sink does not accept. -/
def notReady (s : State) : State := s.setEnv { s.env with sinkReady := false }

/-- A WRITEFLASH request for `n` pages from flash page 65535 waits to be dispatched. -/
def requesting (n : Byte) : State :=
  holding .dispatch 0 [0x00, 0xFF, 0x18, 0x00, 0x00, 0xFF, 0xFF, n, 0x00]

theorem witness_DecodeOfEncodeIsTheInstruction :
    (Instr.frame 0x7F ramp).wf = true ∧ (Instr.frame 0x7F ramp).format = some .wire ∧
    (Instr.loadbuffer 0 32 9 1023 (List.replicate 25 1)).wf = true ∧
    (Instr.loadbuffer 0 32 9 1023 (List.replicate 25 1)).format = some .command ∧
    (Instr.writeflash 0 8 0 0 255 []).wf = true ∧ (Instr.writeflash 0 8 0 0 255 []).format = some .command ∧
    (Instr.stepReadType 0).wf = true ∧ (Instr.stepReadType 0).format = some (.byteStep .readType) := by decide

theorem witness_EncodeOfDecodedPayloadIsThePayload : ramp.length ≤ 32 ∧ ([] : List Byte).length ≤ 32 := by decide

theorem witness_StepRunsTheFetchedInstruction :
    fetch State.reset = some .boot ∧ State.reset.env.turns = [] ∧
    fetch (withTurns [.core] ((at' .poll).setRxq [0xBC])) = some (.stepWaitSync1 0xBC) ∧
    (withTurns [.core] ((at' .poll).setRxq [0xBC])).env.turns = .core :: [] := by decide

theorem witness_FetchIsSelectedByTop :
    State.reset.top = .boot ∧ (at' .app).top = .app ∧ (at' .fault).top = .fault ∧
    (at' .poll).top = .poll ∧ (at' .poll).rxq = [] ∧ ((at' .poll).setRxq [0xBC]).rxq = 0xBC :: [] ∧
    decode (.byteStep (at' .poll).fst) [0xBC] = .ok (.stepWaitSync1 0xBC, []) ∧
    (at' .dispatch).top = .dispatch ∧ (at' .send).top = .send ∧ (flashing .eWait2 9 10).top = .flash ∧
    (flashing .eWait2 9 10).wfPhase = .eWait2 ∧ (flashing .pWaitW 9 10).wfPhase = .pWaitW ∧
    ((flashing .head 9 10).wfI.toNat < (flashing .head 9 10).wfN.toNat ∧ (flashing .head 9 10).wfI.toNat < 10) ∧
    ¬ ((flashing .head 10 10).wfI.toNat < (flashing .head 10 10).wfN.toNat ∧ (flashing .head 10 10).wfI.toNat < 10) ∧
    ¬ ((flashing .head 10 11).wfI.toNat < (flashing .head 10 11).wfN.toNat ∧ (flashing .head 10 11).wfI.toNat < 10) := by
  decide

/-- For WaitSync1Step, WaitSync2Step, ReadTypeStep, ReadLengthStep and ReadChecksumLowStep. -/
theorem witness_ByteSteps (f : Fst) : (framing f 0 0 []).top = .poll ∧ (framing f 0 0 []).fst = f := ⟨rfl, rfl⟩

theorem witness_ReadPayloadStep :
    (framing .readPayload 31 32 ramp).top = .poll ∧ (framing .readPayload 31 32 ramp).fst = .readPayload ∧
    (framing .readPayload 31 32 ramp).rxCount.toNat < 32 := by decide

theorem witness_ReadChecksumHighStep :
    (framing .readChecksumHigh 32 32 ramp).top = .poll ∧ (framing .readChecksumHigh 32 32 ramp).fst = .readChecksumHigh ∧
    (framing .readChecksumHigh 32 32 ramp).pkt.length.toNat ≤ 32 := by decide

theorem witness_PopConsumesOneByte :
    (framing .readPayload 31 32 ramp).top = .poll ∧ (framing .readPayload 31 32 ramp).rxq = [] ∧
    ((framing .readPayload 31 32 ramp).setRxq [1]).rxq = 1 :: [] ∧
    (((framing .readPayload 31 32 ramp).setRxq [1]).fst = .readPayload →
      ((framing .readPayload 31 32 ramp).setRxq [1]).rxCount.toNat < 32) ∧
    (((framing .readChecksumHigh 32 32 ramp).setRxq [1]).fst = .readChecksumHigh →
      ((framing .readChecksumHigh 32 32 ramp).setRxq [1]).pkt.length.toNat ≤ 32) := by decide

/-- For FrameYieldsItsPacket and FrameTurnIsItsElementaryTurns. -/
theorem witness_FrameYieldsItsPacket :
    ramp.length ≤ 32 ∧ (at' .poll).top = .poll ∧ (at' .poll).fst = .waitSync1 ∧ (at' .poll).rxq = [] := by decide

theorem witness_FrameWhileNotPollingOnlyQueues :
    ((at' .flash).setRxq (List.replicate 64 0)).top ≠ .poll ∧
    ((at' .flash).setRxq (List.replicate 64 0)).rxq.length ≤ 64 := by decide

theorem witness_NextFrameSurvivesAMalformedOne :
    (0xBC : Byte) ≠ 0xCF ∧ 32 < (0x21 : Byte).toNat ∧ ramp.length ≤ 32 ∧
    le16 0 0 ≠ cksum16 0x7F (BitVec.ofNat 8 ramp.length) ramp ∧
    (at' .poll).top = .poll ∧ (at' .poll).fst = .waitSync1 ∧ (at' .poll).rxq = [] := by decide

/-- For ChecksumClosedForm, ChecksumDetectsOneChangedByte and ChecksumDetectsAdjacentExchange. -/
theorem witness_Checksum :
    ramp.length ≤ 32 ∧ (0x01 : Byte) ≠ 0x00 ∧ 31 < ramp.length ∧ ramp.getD 31 0 ≠ 0 ∧ (0x02 : Byte) ≠ 0x01 := by decide

/-- For the statements about one dispatched command. -/
theorem witness_Dispatched : (at' .dispatch).top = .dispatch := rfl

theorem witness_LoadbufferStoresItsData :
    (7 ≤ 32 ∧ (List.replicate 25 (1 : Byte)).length = 32 - 7 ∧ (9 : Half).toNat ≤ 9 ∧ (999 : Half).toNat + (32 - 7) ≤ 1024) ∧
    (7 ≤ 7 ∧ ([] : List Byte).length = 7 - 7 ∧ (0 : Half).toNat ≤ 9 ∧ (1024 : Half).toNat + (7 - 7) ≤ 1024) := by decide

theorem witness_LoadbufferOutOfBoundsWritesNothing :
    6 < 7 ∧ 9 < (10 : Half).toNat ∧ 1024 < (1000 : Half).toNat + (32 - 7) := by decide

theorem witness_IgnoredPacketsHaveNoEffect :
    (∃ lead e, Instr.readbuffer 0 [] = .readbuffer lead e) ∧ (∃ lead e, Instr.readflash 0 [] = .readflash lead e) ∧
    (∃ lead op e, Instr.defaultArm 0 0x11 [] = .defaultArm lead op e) ∧ (∃ p, Instr.ignored [] = .ignored p) :=
  ⟨⟨_, _, rfl⟩, ⟨_, _, rfl⟩, ⟨_, _, _, rfl⟩, ⟨_, rfl⟩⟩

theorem witness_WriteflashEndsWithTheStatusReply :
    (flashing .head 10 10).top = .flash ∧ (flashing .head 10 10).wfPhase = .head ∧
    (flashing .head 10 10).wfN.toNat ≤ (flashing .head 10 10).wfI.toNat := by decide

theorem witness_TooManyPagesHaltTheBlock :
    (flashing .head 10 11).top = .flash ∧ (flashing .head 10 11).wfPhase = .head ∧
    (flashing .head 10 11).wfI.toNat < (flashing .head 10 11).wfN.toNat ∧ 10 ≤ (flashing .head 10 11).wfI.toNat := by
  decide

theorem witness_ReplyEchoesTypeAndLead :
    nextIs (coreStep (holding .dispatch 0x42 [0x07, 0xFF, 0x10])) (fun _ => true) = true ∧
    nextIs (coreStep (flashing .head 10 10)) (fun _ => true) = true := by decide

theorem witness_OnlyThreeCommandsReply :
    nextIs (coreStep (holding .dispatch 0 [0x00, 0xFF, 0x10])) (fun t => t.top == .send) = true ∧
    nextIs (coreStep (holding .dispatch 0 [0x00, 0xFF, 0x19])) (fun t => t.top == .send) = true ∧
    nextIs (coreStep (flashing .head 10 10)) (fun t => t.top == .send) = true := by decide

/-- V-SEC-12, V-SEC-16, and the greatest page that can be formed. -/
theorem witness_SectorLookupIsExactMatch :
    sectorIndex 0x080E0000 = some 11 ∧ sectorIndex 0x08100000 = none ∧ 65545 < 65546 ∧
    sectorIndex (flashPageAddr 896) = some 11 ∧ sectorIndex (flashPageAddr 65545) = none := by decide

theorem witness_SectorLookupChoosesEraseOrProgram :
    (flashing .head 0 1).top = .flash ∧ (flashing .head 0 1).wfPhase = .head ∧
    sectorIndex 0x08000000 = some 0 ∧ sectorIndex 0x08003C00 = none := by decide

/-- For EraseOperationByOperation, ProgramOperationByOperation, SequencerStepMakesOneOperation and
BusyControllerHangsTheBlock. -/
theorem witness_FlashPhases (p : WfPhase) :
    (busy (flashing p 9 10)).top = .flash ∧ (busy (flashing p 9 10)).wfPhase = p ∧
    (busy (flashing p 9 10)).env.fcBusy = true ∧ (busy (flashing p 9 10)).env.turns = [] ∧ (9 : BitVec 4).toNat ≤ 9 :=
  ⟨rfl, rfl, rfl, rfl, by decide⟩

/-- For WriteflashOperationTrace (no page, ten pages) and ElevenPagesProgramTenThenHalt. -/
theorem witness_WriteflashOperationTrace :
    decodePacket (requesting 0).pkt = .writeflash 0 9 0 65535 0 [] ∧ (0 : Half).toNat ≤ 10 ∧
    decodePacket (requesting 10).pkt = .writeflash 0 9 0 65535 10 [] ∧ (10 : Half).toNat ≤ 10 ∧
    decodePacket (requesting 11).pkt = .writeflash 0 9 0 65535 11 [] ∧ 10 < (11 : Half).toNat ∧
    (requesting 11).top = .dispatch ∧ (requesting 11).env.fcBusy = false ∧ (requesting 11).env.turns = [] := by decide

theorem witness_EraseSetsTheSectorToErased : (11 : BitVec 4).toNat < 12 ∧ (0 : BitVec 4).toNat < 12 := by decide

theorem witness_WordWriteChangesOnlyItsWord :
    let e := { Env.initial with fcConfig := some programCfg }
    e.fcConfig = some programCfg ∧ 0x08000000 ≤ 0x080FFFFC ∧ 0x080FFFFC + 3 ≤ 0x080FFFFF ∧
    e.flash.readWord flashDefault 0x080FFFFC = 0xFFFFFFFF ∧ 0x080FFFFB < 0x080FFFFC ∧ 0x080FFFFC + 4 ≤ 0x08100000 ∧
    ¬ (0x08100000 + 3 ≤ 0x080FFFFF) ∧ ¬ (Env.initial.fcConfig = some programCfg) := by
  decide

theorem witness_FlashIsTouchedOnlyInFlashState :
    nextIs (step (requesting 11)) (fun _ => true) = true ∧ (requesting 11).top ≠ .flash := by decide

/-- A byte of the sector is erased, and a byte of word 0 is programmed. -/
theorem witness_FlashByteChangesOnlyWhereTheOperationPoints :
    let erasing := (flashing .eCfg 0 1).setEnv { Env.initial with flash := [(0x08004000, 0x12)] }
    let programming := { staged with env := { Env.initial with fcConfig := some programCfg } }
    let changes (s : State) (a : Nat) :=
      nextIs (step s) (fun t => t.env.flash.read flashDefault a != s.env.flash.read flashDefault a)
    changes erasing 0x08004000 = true ∧ changes programming 0x08004003 = true ∧ changes programming 0x08004004 = false := by
  decide

/-- Ten erased pages up to the end of the device (pages 1014 to 1023), and ten pages from a sector start (page 16). -/
theorem witness_WriteflashCommitsTheStagedPages :
    let last := holding .dispatch 0 [0x00, 0xFF, 0x18, 0x00, 0x00, 0xF6, 0x03, 0x0A, 0x00]
    let first := holding .dispatch 0 [0x00, 0xFF, 0x18, 0x00, 0x00, 0x10, 0x00, 0x0A, 0x00]
    (last.top = .dispatch ∧ decodePacket last.pkt = .writeflash 0 9 0 1014 10 [] ∧ 1014 + 10 ≤ 1024 ∧
      last.env.fcBusy = false ∧ last.env.turns = [] ∧ ∀ a, last.env.flash.read flashDefault a = 0xFF) ∧
    decodePacket first.pkt = .writeflash 0 9 0 16 10 [] ∧ sectorIndex (flashPageAddr 16) ≠ none :=
  ⟨⟨by decide, by decide, by decide, by decide, by decide, fun _ => rfl⟩, by decide, by decide⟩

theorem witness_SendPutsTheNextByte :
    let first := holding .send 0 ramp
    let last := notReady { holding .send 0 ramp with txIdx := 37 }
    first.top = .send ∧ first.pkt.length.toNat ≤ 32 ∧ first.txIdx = 0 ∧ first.env.sinkReady = true ∧
    first.txIdx.toNat ≤ first.pkt.length.toNat + 5 ∧
    last.top = .send ∧ last.pkt.length.toNat ≤ 32 ∧ last.txIdx ≠ 0 ∧ last.env.sinkReady = false ∧
    last.txIdx.toNat ≤ last.pkt.length.toNat + 5 := by decide

theorem witness_SendEmitsTheWholeFrame :
    let s := holding .send 0 ramp
    s.top = .send ∧ s.txIdx = 0 ∧ s.pkt.length.toNat ≤ 32 ∧ s.env.sinkReady = true ∧ s.env.turns = [] := by decide

theorem witness_BootDecidesTheMode : State.reset.top = .boot := rfl

theorem witness_OnlyResetLeavesAppAndFault :
    (at' .app).top = .app ∧ (at' .app).env.turns.head? ≠ some .reset ∧
    (withTurns [.line 0xBC] (at' .fault)).top = .fault ∧
    (withTurns [.line 0xBC] (at' .fault)).env.turns.head? ≠ some .reset := by decide

theorem witness_ResetLeavesTheSpecifiedValues : 31 < 32 ∧ 9 ≤ 9 ∧ 1023 ≤ 1023 := by decide

theorem witness_HardwareResetKeepsTheFlash : (withTurns [.reset] (at' .fault)).env.turns = .reset :: [] := rfl

theorem witness_ReceiveInterruptTouchesOnlyTheQueue :
    (withTurns [.line 0xBC] ((at' .flash).setRxq (List.replicate 64 0))).env.turns = .line 0xBC :: [] := rfl

/-- For OnePacketAtATime and OutputsAreNeverTakenBack. -/
theorem witness_OnePacketAtATime :
    (requesting 11).top = .dispatch ∧ nextIs (step (requesting 11)) (fun _ => true) = true ∧
    (flashing .pWaitW 9 10).top = .flash ∧ nextIs (step (flashing .pWaitW 9 10)) (fun _ => true) = true ∧
    (holding .send 0 ramp).top = .send ∧ nextIs (step (holding .send 0 ramp)) (fun _ => true) = true ∧
    (requesting 11).env.turns.head? ≠ some .reset := by decide

/-- V-LB-4, as a step. -/
theorem witness_StageIsWrittenOnlyByLoadbuffer :
    let s := holding .dispatch 0 [0x00, 0xFF, 0x14, 0x09, 0x00, 0xFF, 0x03, 0x5A]
    s.env.turns.head? ≠ some .reset ∧ nextIs (step s) (fun t => t.stage != s.stage) = true := by decide

/-- A state inside page 9 of ten meets the invariant and has a next state (for EveryStepKeepsTheInvariant and
EveryStepCompletes). -/
theorem witness_EveryStepKeepsTheInvariant :
    (flashing .pWord 9 10).Inv ∧ nextIs (step (flashing .pWord 9 10)) (fun _ => true) = true :=
  ⟨⟨by unfold State.rxInv; decide, by unfold State.packetInv; decide, by unfold State.flashInv; decide,
    by unfold State.memInv; decide⟩, by decide⟩

end Sys2Proof.Tests
end

/-! The receive framer (40_framing_rx.md R81 to R89): what each byte-step does where CORE polls and `fst` selects it,
what a poll of the receive queue does, and the obligations about both. -/

namespace Sys2Proof.Machine

/-! The byte-steps, each as the next state it answers. -/

/-- STEP.WaitSync1 (R83). -/
theorem exec_stepWaitSync1 {s : State} (c : Byte) (hp : s.top = .poll) (hf : s.fst = .waitSync1) :
    exec (.stepWaitSync1 c) s =
      .next (if c = sync1 then { s with fst := .waitSync2 } else { s with rxCount := 0 }) := by
  have hraise : s.raise .badSync = { s with rxCount := 0 } := by rw [raise_cases]; exact if_pos hf
  exact (byteStepAt_enabled hp hf).trans (by rw [hraise]; rfl)

/-- STEP.WaitSync2 (R84). -/
theorem exec_stepWaitSync2 {s : State} (c : Byte) (hp : s.top = .poll) (hf : s.fst = .waitSync2) :
    exec (.stepWaitSync2 c) s = .next { s with fst := if c = sync2 then .readType else .waitSync1 } := by
  have hraise : s.raise .badSync = { s with fst := .waitSync1 } := by rw [raise_cases]; exact if_neg (by simp [hf])
  refine (byteStepAt_enabled hp hf).trans ?_
  rw [hraise]
  split <;> rfl

/-- STEP.ReadType (R85). -/
theorem exec_stepReadType {s : State} (c : Byte) (hp : s.top = .poll) (hf : s.fst = .readType) :
    exec (.stepReadType c) s =
      .next { s with
        pkt := { type := c, length := 0, payload := Vector.replicate 32 0, cksum := 0 }, fst := .readLength } :=
  byteStepAt_enabled hp hf

/-- STEP.ReadLength (R86). -/
theorem exec_stepReadLength {s : State} (c : Byte) (hp : s.top = .poll) (hf : s.fst = .readLength) :
    exec (.stepReadLength c) s =
      .next
        (if maxPayload < c.toNat then { s with pkt := { s.pkt with length := c }, fst := .waitSync1 }
         else if c = 0 then { s with pkt := { s.pkt with length := c }, fst := .readChecksumLow }
         else { s with pkt := { s.pkt with length := c }, rxCount := 0, fst := .readPayload }) :=
  byteStepAt_enabled hp hf

/-- STEP.ReadPayload (R87). -/
theorem exec_stepReadPayload {s : State} (c : Byte) (hp : s.top = .poll) (hf : s.fst = .readPayload)
    (hi : s.rxCount.toNat < maxPayload) :
    exec (.stepReadPayload c) s =
      .next { s with
        pkt := s.pkt.put s.rxCount.toNat c
        rxCount := s.rxCount + 1
        fst := if s.rxCount.toNat + 1 = s.pkt.length.toNat then .readChecksumLow else .readPayload } := by
  refine (byteStepAt_enabled hp hf).trans ((if_pos hi).trans ?_)
  split
  · rfl
  · rw [← hf]; rfl

/-- STEP.ReadChecksumLow (R88). -/
theorem exec_stepReadChecksumLow {s : State} (c : Byte) (hp : s.top = .poll) (hf : s.fst = .readChecksumLow) :
    exec (.stepReadChecksumLow c) s =
      .next { s with pkt := { s.pkt with cksum := le16 c (hi8 s.pkt.cksum) }, fst := .readChecksumHigh } :=
  byteStepAt_enabled hp hf

/-- STEP.ReadChecksumHigh (R89): the accumulators are those of the received bytes, and the 16 received checksum
bits decide between yielding the packet and reporting it. -/
theorem exec_stepReadChecksumHigh {s : State} (c : Byte) (hp : s.top = .poll) (hf : s.fst = .readChecksumHigh)
    (hl : s.pkt.length.toNat ≤ maxPayload) {ok : Bool}
    (hok : ok = decide (le16 (lo8 s.pkt.cksum) c = cksum16 s.pkt.type s.pkt.length s.pkt.valid)) :
    exec (.stepReadChecksumHigh c) s =
      .next { s with
        pkt := { s.pkt with cksum := le16 (lo8 s.pkt.cksum) c }
        ckA := (ckAcc s.pkt.type s.pkt.length s.pkt.valid).a
        ckB := (ckAcc s.pkt.type s.pkt.length s.pkt.valid).b
        ckOk := ok
        fst := .waitSync1
        top := if ok then .dispatch else .poll
        env := if ok then s.env else { s.env with trace := s.env.trace ++ [.diag .checksumFail] } } := by
  refine (byteStepAt_enabled hp hf).trans ((if_pos hl).trans ?_)
  dsimp only
  generalize hg : decide (_ = cksum16 _ _ _) = b
  obtain rfl : ok = b := hok.trans hg
  cases ok
  · rw [← hp]; rfl
  · rfl

/-! The receive queue. -/

/-- A poll of an empty queue (R81). -/
theorem exec_rxqPop_nil {s : State} (hp : s.top = .poll) (hq : s.rxq = []) : exec .rxqPop s = .next s := by
  change execRxqPop s = _
  simp [execRxqPop, whenEnabled, hp, hq]

/-- A poll of a queue that holds a byte is the byte-step that `fst` selects, with the byte gone (R81, R82). -/
theorem exec_rxqPop_cons {s : State} {c : Byte} {rest : List Byte} (hp : s.top = .poll) (hq : s.rxq = c :: rest) :
    exec .rxqPop s = exec (decodeByte s.fst c) { s with rxq := rest } := by
  have hpop : execRxqPop s = applyByte c (s.setRxq rest) := by simp [execRxqPop, whenEnabled, hp, hq]
  exact hpop.trans (applyByte_eq c (s.setRxq rest))

/-- The byte-step that `fst` selects completes where its index is one the payload register has, and leaves the queue
alone. -/
theorem exec_decodeByte_completes {s : State} (c : Byte) (hp : s.top = .poll)
    (hi : s.fst = .readPayload → s.rxCount.toNat < maxPayload)
    (hl : s.fst = .readChecksumHigh → s.pkt.length.toNat ≤ maxPayload) :
    ∃ t, exec (decodeByte s.fst c) s = .next t ∧ t.rxq = s.rxq := by
  cases hf : s.fst
  case waitSync1 => exact ⟨_, exec_stepWaitSync1 c hp hf, by split <;> rfl⟩
  case waitSync2 => exact ⟨_, exec_stepWaitSync2 c hp hf, rfl⟩
  case readType => exact ⟨_, exec_stepReadType c hp hf, rfl⟩
  case readLength => exact ⟨_, exec_stepReadLength c hp hf, by split <;> [rfl; split <;> rfl]⟩
  case readPayload => exact ⟨_, exec_stepReadPayload c hp hf (hi hf), rfl⟩
  case readChecksumLow => exact ⟨_, exec_stepReadChecksumLow c hp hf, rfl⟩
  case readChecksumHigh => exact ⟨_, exec_stepReadChecksumHigh c hp hf (hl hf) rfl, rfl⟩

end Sys2Proof.Machine

namespace Sys2Proof

open Machine

/-- Settles O7: in WaitSync1 the class BadSync only clears the counter. -/
theorem waitSync1Step : Obligations.WaitSync1Step :=
  fun c _ hp hf => exec_stepWaitSync1 c hp hf

/-- Settles O8: in WaitSync2 the class BadSync returns to WaitSync1. -/
theorem waitSync2Step : Obligations.WaitSync2Step :=
  fun c _ hp hf => exec_stepWaitSync2 c hp hf

/-- Settles O11: the stored byte is read back by `Packet.byte_put`. -/
theorem readPayloadStep : Obligations.ReadPayloadStep := by
  intro c s hp hf hi
  refine ⟨_, exec_stepReadPayload c hp hf hi, rfl, fun i h32 => ?_⟩
  rw [Packet.byte_put _ _ _ _ h32]
  simp only [eq_comm (a := i)]

/-- Settles O12: the low byte of the new checksum is the received one, the high byte the old one's. -/
theorem readChecksumLowStep : Obligations.ReadChecksumLowStep :=
  fun c _ hp hf => ⟨_, exec_stepReadChecksumLow c hp hf, rfl, lo8_le16 c _, hi8_le16 c _⟩

/-- Settles O15: the poll is the selected byte-step, which completes and keeps the queue. -/
theorem popConsumesOneByte : Obligations.PopConsumesOneByte := by
  intro s hp
  refine ⟨exec_rxqPop_nil hp, fun c rest hq hi hl => ?_⟩
  obtain ⟨t, hstep, hrest⟩ := exec_decodeByte_completes (s := { s with rxq := rest }) c hp hi hl
  exact ⟨t, (exec_rxqPop_cons hp hq).trans hstep, hstep, hrest⟩

end Sys2Proof

/-! The arms of the dispatcher that ignore their packet (42_commands.md R110, R117, R121, R122). -/

namespace Sys2Proof.Machine

/-- What an ignoring arm answers: the class Ignored withdraws the reply and CORE polls again (60_exceptions.md R165). -/
theorem dispatching_ignored {s : State} (hd : s.top = .dispatch) :
    dispatching s (.next (s.raise .ignored)) = .next { s with replyRequired := false, top := .poll } :=
  (dispatching_enabled hd).trans (congrArg Host.Outcome.next (raise_cases s .ignored))

/-- READBUFFER (R117). -/
theorem exec_readbuffer {s : State} (lead : Byte) (e : List Byte) (hd : s.top = .dispatch) :
    exec (.readbuffer lead e) s = .next { s with replyRequired := false, top := .poll } :=
  dispatching_ignored hd

/-- READFLASH (R121). -/
theorem exec_readflash {s : State} (lead : Byte) (e : List Byte) (hd : s.top = .dispatch) :
    exec (.readflash lead e) s = .next { s with replyRequired := false, top := .poll } :=
  dispatching_ignored hd

/-- The default arm (R122), for every opcode byte. -/
theorem exec_defaultArm {s : State} (lead op : Byte) (e : List Byte) (hd : s.top = .dispatch) :
    exec (.defaultArm lead op e) s = .next { s with replyRequired := false, top := .poll } :=
  dispatching_ignored hd

/-- A packet that fails admission (R110). -/
theorem exec_ignored {s : State} (p : List Byte) (hd : s.top = .dispatch) :
    exec (.ignored p) s = .next { s with replyRequired := false, top := .poll } :=
  dispatching_ignored hd

end Sys2Proof.Machine

namespace Sys2Proof

open Machine

/-- Settles O27: each of the four is an arm that only takes the class Ignored. -/
theorem ignoredPacketsHaveNoEffect : Obligations.IgnoredPacketsHaveNoEffect := by
  rintro i s (⟨lead, e, rfl⟩ | ⟨lead, e, rfl⟩ | ⟨lead, op, e, rfl⟩ | ⟨p, rfl⟩) hd
  · exact exec_readbuffer lead e hd
  · exact exec_readflash lead e hd
  · exact exec_defaultArm lead op e hd
  · exact exec_ignored p hd

end Sys2Proof

/-! Encoding and decoding (30_encoding.md sections 1 to 3): the packet that a payload makes, the 16-bit fields that a
short request cuts off, and the round trips of commands and of frames. -/

namespace Sys2Proof

/-! The packet of a payload. -/

theorem Packet.length_ofFrame (t : Byte) {bytes : List Byte} (h : bytes.length ≤ 32) :
    (Packet.ofFrame t bytes).length.toNat = bytes.length := by
  simp only [Packet.ofFrame, BitVec.toNat_ofNat]
  omega

theorem Packet.byte_ofFrame (t : Byte) (bytes : List Byte) {i : Nat} (h : i < 32) :
    (Packet.ofFrame t bytes).byte i = bytes.getD i 0 :=
  byte_paddedPayload _ _ _ bytes i h

/-- Admission reads the length and the marker byte of the payload (42_commands.md R110). -/
theorem Packet.admitted_ofFrame (t : Byte) {bytes : List Byte} (h : bytes.length ≤ 32) :
    (Packet.ofFrame t bytes).admitted = true ↔ 3 ≤ bytes.length ∧ bytes.getD 1 0 = marker := by
  simp [Packet.admitted, Packet.length_ofFrame t h, Packet.byte_ofFrame t bytes (show markerPos < 32 by decide)]

/-- A command's bytes are its lead byte, the marker, its opcode and its arguments. -/
theorem Packet.byte_ofFrame_commandBytes (lead op : Byte) (args : List Byte) :
    (Packet.ofFrame 0 (commandBytes lead op args)).byte 0 = lead :=
  Packet.byte_ofFrame _ _ (by decide)

theorem Packet.cmd_ofFrame_commandBytes (lead op : Byte) (args : List Byte) :
    (Packet.ofFrame 0 (commandBytes lead op args)).cmd 0 = op :=
  Packet.byte_ofFrame _ _ (by decide)

theorem Packet.cmd16_ofFrame_commandBytes (lead op : Byte) (args : List Byte) {k : Nat} (h : k < 28) :
    (Packet.ofFrame 0 (commandBytes lead op args)).cmd16 (k + 1) = le16 (args.getD k 0) (args.getD (k + 1) 0) := by
  have hidx (j : Nat) : cmdBase + (j + 1) = j + 3 := Nat.add_comm _ _
  rw [Packet.cmd16, Packet.cmd, Packet.cmd, hidx, hidx, Packet.byte_ofFrame _ _ (by omega),
    Packet.byte_ofFrame _ _ (by omega)]
  rfl

theorem commandBytes_length (lead op : Byte) (args : List Byte) :
    (commandBytes lead op args).length = args.length + 3 := rfl

/-- A cut-off command keeps its lead byte, marker and opcode. -/
theorem commandBytes_take (lead op : Byte) (args : List Byte) {len : Nat} (h : 3 ≤ len) :
    (commandBytes lead op args).take len = commandBytes lead op (args.take (len - 3)) := by
  obtain ⟨n, rfl⟩ := Nat.exists_eq_add_of_le' h
  rfl

/-- A payload is admitted exactly if it is the bytes of a command. -/
theorem exists_commandBytes {bytes : List Byte} (h3 : 3 ≤ bytes.length) (hm : bytes.getD 1 0 = marker) :
    ∃ lead op args, bytes = commandBytes lead op args := by
  match bytes, h3, hm with
  | lead :: _ :: op :: args, _, hm => exact ⟨lead, op, args, congrArg (lead :: · :: op :: args) hm⟩

/-- The bytes of a command decode by the opcode. -/
theorem decode_commandBytes (lead op : Byte) {args : List Byte} (h : args.length ≤ 29) :
    decode .command (commandBytes lead op args) =
      .ok (decodeCommand (Packet.ofFrame 0 (commandBytes lead op args)), []) := by
  have hlen : (commandBytes lead op args).length ≤ 32 := by rw [commandBytes_length]; omega
  have hadm : (Packet.ofFrame 0 (commandBytes lead op args)).admitted = true :=
    (Packet.admitted_ofFrame 0 hlen).2 ⟨Nat.le_add_left 3 _, rfl⟩
  rw [decode, if_pos hlen, decodePacket, if_pos hadm]

/-- The command that the bytes of a command are, by its opcode (42_commands.md R111). -/
theorem decodeCommand_commandBytes (lead op : Byte) {args : List Byte} (h : args.length ≤ 29) :
    decodeCommand (Packet.ofFrame 0 (commandBytes lead op args)) =
      if op = 0x10 then .getinfo lead args
      else if op = 0x12 then .getmapping lead args
      else if op = 0x14 then
        .loadbuffer lead (args.length + 3) (le16 (args.getD 0 0) (args.getD 1 0))
          (le16 (args.getD 2 0) (args.getD 3 0)) (args.drop 4)
      else if op = 0x15 then .readbuffer lead args
      else if op = 0x18 then
        .writeflash lead (args.length + 3) (le16 (args.getD 0 0) (args.getD 1 0))
          (le16 (args.getD 2 0) (args.getD 3 0)) (le16 (args.getD 4 0) (args.getD 5 0)) (args.drop 6)
      else if op = 0x19 then .flashstatus lead args
      else if op = 0x1C then .readflash lead args
      else .defaultArm lead op args := by
  have hlen : (commandBytes lead op args).length ≤ 32 := by rw [commandBytes_length]; omega
  simp only [decodeCommand, Packet.byte_ofFrame_commandBytes, Packet.cmd_ofFrame_commandBytes,
    Packet.valid_ofFrame _ _ hlen, Packet.length_ofFrame _ hlen, commandBytes_length,
    Packet.cmd16_ofFrame_commandBytes _ _ _ (show 0 < 28 by decide),
    Packet.cmd16_ofFrame_commandBytes _ _ _ (show 2 < 28 by decide),
    Packet.cmd16_ofFrame_commandBytes _ _ _ (show 4 < 28 by decide)]
  rfl

/-! The 16-bit fields of a request that may end before them (30_encoding.md R65). -/

theorem getD_take (l : List Byte) (n k : Nat) : (l.take n).getD k 0 = if k < n then l.getD k 0 else 0 := by
  simp only [List.getD_eq_getElem?_getD, List.getElem?_take]
  split <;> rfl

/-- A field that fits a request of length `len` is made up of the bytes that the request carries. -/
theorem le16_of_fieldFits {len k : Nat} {v : Half} (h3 : 3 ≤ len) (h : fieldFits len (k + 3) v = true) :
    le16 (if k < len - 3 then lo8 v else 0) (if k + 1 < len - 3 then hi8 v else 0) = v := by
  have hv : v.toNat < 256 ^ min 2 (len - (k + 3)) := of_decide_eq_true h
  apply BitVec.eq_of_toNat_eq
  rw [le16_toNat]
  by_cases h1 : k + 1 < len - 3
  · rw [if_pos (by omega), if_pos h1, lo8_toNat, hi8_toNat]
    omega
  rw [if_neg h1]
  by_cases h0 : k < len - 3
  · rw [show min 2 (len - (k + 3)) = 1 by omega] at hv
    rw [if_pos h0, lo8_toNat]
    simpa using hv
  · rw [show min 2 (len - (k + 3)) = 0 by omega] at hv
    rw [if_neg h0]
    exact (Nat.lt_one_iff.1 hv).symm

/-- A field read from a request has no bit set in a byte that the request does not carry. -/
theorem fieldFits_le16 (args : List Byte) (k : Nat) :
    fieldFits (args.length + 3) (k + 3) (le16 (args.getD k 0) (args.getD (k + 1) 0)) = true := by
  have h0 := (args.getD k 0).isLt
  have h1 := (args.getD (k + 1) 0).isLt
  rw [fieldFits, decide_eq_true_eq, le16_toNat]
  by_cases hk1 : k + 1 < args.length
  · rw [show min 2 (args.length + 3 - (k + 3)) = 2 by omega]
    omega
  rw [List.getD_eq_default args 0 (Nat.le_of_not_lt hk1)]
  by_cases hk : k < args.length
  · rw [show min 2 (args.length + 3 - (k + 3)) = 1 by omega]
    simpa using h0
  · rw [List.getD_eq_default args 0 (Nat.le_of_not_lt hk), Nat.min_eq_right (by omega),
      show args.length + 3 - (k + 3) = 0 by omega]
    decide

/-- The first `n` arguments, zero where there is none, and the later ones, cut at the end of the arguments, are the
arguments. -/
theorem take_fields_append_drop (n : Nat) (args : List Byte) :
    (((List.range n).map fun k => args.getD k 0) ++ args.drop n).take args.length = args := by
  apply List.ext_getElem?
  intro i
  by_cases hi : i < args.length
  · by_cases hn : i < n
    · simp [List.getElem?_append, hi, hn]
    · simp [List.getElem?_append, hi, hn, show n + (i - n) = i by omega]
  · rw [List.getElem?_eq_none (by simp; omega), List.getElem?_eq_none (Nat.le_of_not_lt hi)]

/-! Commands. -/

theorem length_le_of_extraFits {e : List Byte} (h : extraFits e = true) : e.length ≤ 29 := by
  have : 3 + e.length ≤ 32 := of_decide_eq_true h
  omega

theorem extraFits_of_length_le {e : List Byte} (h : e.length ≤ 29) : extraFits e = true :=
  decide_eq_true (show 3 + e.length ≤ 32 by omega)

theorem lenFits_iff {len : Nat} : lenFits len = true ↔ 3 ≤ len ∧ len ≤ 32 := by
  simp [lenFits]

/-- A command without operands decodes to itself. -/
theorem decode_command_extra (lead op : Byte) {e : List Byte} (h : extraFits e = true) {i : Instr}
    (hi : decodeCommand (Packet.ofFrame 0 (commandBytes lead op e)) = i) :
    decode .command (commandBytes lead op e) = .ok (i, []) := by
  rw [decode_commandBytes lead op (length_le_of_extraFits h), hi]

theorem decode_encode_loadbuffer {lead : Byte} {len : Nat} {page address : Half} {data : List Byte}
    (h : (Instr.loadbuffer lead len page address data).wf = true) :
    decode .command (encode (.loadbuffer lead len page address data)) =
      .ok (.loadbuffer lead len page address data, []) := by
  simp only [Instr.wf, Bool.and_eq_true, decide_eq_true_eq, lenFits_iff] at h
  obtain ⟨⟨⟨⟨h3, h32⟩, hp⟩, ha⟩, hd⟩ := h
  have hd' : data.length = len - 7 := hd
  have hlen : ((halfBytes page ++ halfBytes address ++ data).take (len - 3)).length = len - 3 := by
    simp [halfBytes]; omega
  have hdrop : ((halfBytes page ++ halfBytes address ++ data).take (len - 3)).drop 4 = data := by
    rw [List.drop_take, show len - 3 - 4 = data.length by omega]
    exact List.take_length
  rw [encode, commandBytes_take _ _ _ h3, decode_commandBytes _ _ (by omega), decodeCommand_commandBytes _ _ (by omega)]
  simp only [getD_take, hdrop, hlen]
  rw [if_neg (by decide), if_neg (by decide), if_pos trivial, Nat.sub_add_cancel h3]
  refine congrArg (fun i => Except.ok (i, [])) ((Instr.loadbuffer.injEq ..).mpr ⟨rfl, rfl, ?_, ?_, rfl⟩)
  · exact le16_of_fieldFits h3 hp
  · exact le16_of_fieldFits h3 ha

theorem decode_encode_writeflash {lead : Byte} {len : Nat} {b f n : Half} {e : List Byte}
    (h : (Instr.writeflash lead len b f n e).wf = true) :
    decode .command (encode (.writeflash lead len b f n e)) = .ok (.writeflash lead len b f n e, []) := by
  simp only [Instr.wf, Bool.and_eq_true, decide_eq_true_eq, lenFits_iff] at h
  obtain ⟨⟨⟨⟨⟨h3, h32⟩, hb⟩, hf⟩, hn⟩, he⟩ := h
  have hlen : ((halfBytes b ++ halfBytes f ++ halfBytes n ++ e).take (len - 3)).length = len - 3 := by
    simp [halfBytes]; omega
  have hdrop : ((halfBytes b ++ halfBytes f ++ halfBytes n ++ e).take (len - 3)).drop 6 = e := by
    rw [List.drop_take, show len - 3 - 6 = e.length by omega]
    exact List.take_length
  rw [encode, commandBytes_take _ _ _ h3, decode_commandBytes _ _ (by omega), decodeCommand_commandBytes _ _ (by omega)]
  simp only [getD_take, hdrop, hlen]
  rw [if_neg (by decide), if_neg (by decide), if_neg (by decide), if_neg (by decide), if_pos trivial, Nat.sub_add_cancel h3]
  refine congrArg (fun i => Except.ok (i, [])) ((Instr.writeflash.injEq ..).mpr ⟨rfl, rfl, ?_, ?_, ?_, rfl⟩)
  · exact le16_of_fieldFits h3 hb
  · exact le16_of_fieldFits h3 hf
  · exact le16_of_fieldFits h3 hn

theorem decode_encode_defaultArm {lead op : Byte} {e : List Byte} (h : (Instr.defaultArm lead op e).wf = true) :
    decode .command (encode (.defaultArm lead op e)) = .ok (.defaultArm lead op e, []) := by
  simp only [Instr.wf, Bool.and_eq_true, Bool.not_eq_true'] at h
  obtain ⟨hop, he⟩ := h
  refine decode_command_extra lead op he ?_
  rw [decodeCommand_commandBytes _ _ (length_le_of_extraFits he)]
  simp [namedOpcodes] at hop
  simp [hop]

theorem decode_encode_ignored {p : List Byte} (h : (Instr.ignored p).wf = true) :
    decode .command (encode (.ignored p)) = .ok (.ignored p, []) := by
  simp only [Instr.wf, Bool.and_eq_true, Bool.or_eq_true, decide_eq_true_eq, bne_iff_ne] at h
  obtain ⟨h32, hm⟩ := h
  have hadm : ¬ (Packet.ofFrame 0 p).admitted = true := by
    rw [Packet.admitted_ofFrame 0 h32]
    rintro ⟨h3, heq⟩
    exact hm.elim (Nat.not_lt.2 h3) (· heq)
  rw [encode, decode, if_pos h32, decodePacket, if_neg hadm, Packet.valid_ofFrame 0 p h32]

/-- Encoding the command that the bytes of a command decode to gives the bytes back, and it is well-formed. -/
theorem encode_decodeCommand (lead op : Byte) {args : List Byte} (h : args.length ≤ 29) :
    (decodeCommand (Packet.ofFrame 0 (commandBytes lead op args))).wf = true ∧
      encode (decodeCommand (Packet.ofFrame 0 (commandBytes lead op args))) = commandBytes lead op args := by
  have he := extraFits_of_length_le h
  have hl : lenFits (args.length + 3) = true := lenFits_iff.2 ⟨by omega, by omega⟩
  rw [decodeCommand_commandBytes _ _ h]
  split_ifs with h10 h12 h14 h15 h18 h19 h1C
  · exact ⟨he, by rw [encode, h10]⟩
  · exact ⟨he, by rw [encode, h12]⟩
  · refine ⟨?_, ?_⟩
    · simp only [Instr.wf, Bool.and_eq_true, decide_eq_true_eq]
      exact ⟨⟨⟨hl, fieldFits_le16 args 0⟩, fieldFits_le16 args 2⟩,
        List.length_drop.trans (Nat.add_sub_add_right _ 3 4).symm⟩
    · rw [encode, commandBytes_take _ _ _ (by omega), h14]
      simpa [halfBytes, List.range_succ] using congrArg (commandBytes lead 0x14) (take_fields_append_drop 4 args)
  · exact ⟨he, by rw [encode, h15]⟩
  · refine ⟨?_, ?_⟩
    · simp only [Instr.wf, Bool.and_eq_true, decide_eq_true_eq]
      exact ⟨⟨⟨⟨hl, fieldFits_le16 args 0⟩, fieldFits_le16 args 2⟩, fieldFits_le16 args 4⟩,
        List.length_drop.trans (Nat.add_sub_add_right _ 3 6).symm⟩
    · rw [encode, commandBytes_take _ _ _ (by omega), h18]
      simpa [halfBytes, List.range_succ] using congrArg (commandBytes lead 0x18) (take_fields_append_drop 6 args)
  · exact ⟨he, by rw [encode, h19]⟩
  · exact ⟨he, by rw [encode, h1C]⟩
  · refine ⟨?_, rfl⟩
    have hop : op ∉ namedOpcodes := by
      simp only [namedOpcodes, List.mem_cons, List.not_mem_nil, or_false, not_or]
      exact ⟨h10, h12, h14, h15, h18, h19, h1C⟩
    simp [Instr.wf, hop, he]

/-! Frames. -/

/-- A frame on the wire decodes to itself and leaves what follows it (30_encoding.md R60 to R62). -/
theorem decodeFrame_frameBytes (t : Byte) {p : List Byte} (h : p.length ≤ 32) (rest : List Byte) :
    decodeFrame (frameBytes t p ++ rest) = .ok (.frame t p, rest) := by
  have hl : (BitVec.ofNat 8 p.length).toNat = p.length := by
    rw [BitVec.toNat_ofNat]; omega
  have hsplit : frameBytes t p ++ rest =
      sync1 :: sync2 :: t :: BitVec.ofNat 8 p.length ::
        (p ++ lo8 (cksum16 t (BitVec.ofNat 8 p.length) p) :: hi8 (cksum16 t (BitVec.ofNat 8 p.length) p) :: rest) := by
    simp [frameBytes]
  rw [hsplit, decodeFrame, if_neg (by simp), hl, if_neg (Nat.not_lt.2 h), List.drop_left, List.take_left]
  simp

/-- Bytes that decode on the wire are the frame that they decode to and what follows it. -/
theorem eq_of_decodeFrame {bytes rest : List Byte} {i : Instr} (h : decodeFrame bytes = .ok (i, rest)) :
    ∃ t p, p.length ≤ 32 ∧ i = .frame t p ∧ bytes = frameBytes t p ++ rest := by
  unfold decodeFrame at h
  split at h
  case h_2 => cases h
  case h_1 s1 s2 t l tail =>
  split_ifs at h with hsync hlen
  split at h
  case h_2 => cases h
  case h_1 lo hi after hdrop =>
  split_ifs at h with hck
  obtain ⟨rfl, rfl⟩ : Instr.frame t (tail.take l.toNat) = i ∧ after = rest := by simpa using h
  have htail : tail.take l.toNat ++ lo :: hi :: after = tail := hdrop ▸ List.take_append_drop _ _
  have hfit : l.toNat ≤ tail.length := by
    have := congrArg List.length hdrop
    simp at this
    omega
  have hplen : (tail.take l.toNat).length = l.toNat := List.length_take_of_le hfit
  have hsyncs : s1 = sync1 ∧ s2 = sync2 := by simpa using hsync
  refine ⟨t, tail.take l.toNat, hplen.trans_le (Nat.not_lt.1 hlen), rfl, ?_⟩
  rw [frameBytes, hplen, BitVec.ofNat_toNat, BitVec.setWidth_eq, ← hck, lo8_le16, hi8_le16, hsyncs.1, hsyncs.2]
  simp [htail]

/-- Settles O1: each constructor that has a format, by the bytes of its encoding. -/
theorem decodeOfEncodeIsTheInstruction : Obligations.DecodeOfEncodeIsTheInstruction := by
  intro i f hwf hf
  cases i <;> cases hf
  case frame t p =>
    have h := decodeFrame_frameBytes t (of_decide_eq_true hwf) []
    rwa [List.append_nil] at h
  case getinfo lead e =>
    exact decode_command_extra lead _ hwf (decodeCommand_commandBytes _ _ (length_le_of_extraFits hwf))
  case getmapping lead e =>
    exact decode_command_extra lead _ hwf (decodeCommand_commandBytes _ _ (length_le_of_extraFits hwf))
  case loadbuffer => exact decode_encode_loadbuffer hwf
  case readbuffer lead e =>
    exact decode_command_extra lead _ hwf (decodeCommand_commandBytes _ _ (length_le_of_extraFits hwf))
  case writeflash => exact decode_encode_writeflash hwf
  case flashstatus lead e =>
    exact decode_command_extra lead _ hwf (decodeCommand_commandBytes _ _ (length_le_of_extraFits hwf))
  case readflash lead e =>
    exact decode_command_extra lead _ hwf (decodeCommand_commandBytes _ _ (length_le_of_extraFits hwf))
  case defaultArm => exact decode_encode_defaultArm hwf
  case ignored => exact decode_encode_ignored hwf
  all_goals rfl

/-- Settles O2: an admitted payload is the bytes of a command, any other is ignored whole. -/
theorem encodeOfDecodedPayloadIsThePayload : Obligations.EncodeOfDecodedPayloadIsThePayload := by
  intro bytes h
  by_cases hadm : 3 ≤ bytes.length ∧ bytes.getD 1 0 = marker
  · obtain ⟨lead, op, args, rfl⟩ := exists_commandBytes hadm.1 hadm.2
    have hargs : args.length ≤ 29 := by rw [commandBytes_length] at h; omega
    exact ⟨_, decode_commandBytes lead op hargs, encode_decodeCommand lead op hargs⟩
  · have hwf : (Instr.ignored bytes).wf = true := by
      simp only [Instr.wf, Bool.and_eq_true, Bool.or_eq_true, decide_eq_true_eq, bne_iff_ne]
      refine ⟨h, ?_⟩
      by_cases h3 : bytes.length < 3
      · exact .inl h3
      · exact .inr fun hm => hadm ⟨Nat.le_of_not_lt h3, hm⟩
    exact ⟨_, decode_encode_ignored hwf, hwf, rfl⟩

/-- Settles O3: one direction takes the decoder's branches apart, the other decodes the bytes of a frame. -/
theorem wireDecodesExactlyTheFrames : Obligations.WireDecodesExactlyTheFrames := by
  intro bytes rest i
  constructor
  · exact eq_of_decodeFrame
  · rintro ⟨t, p, h, rfl, rfl⟩
    exact decodeFrame_frameBytes t h rest

/-- Settles O4: five words, evaluated. -/
theorem sampleWordsDecodeRight : Obligations.SampleWordsDecodeRight := by
  unfold Obligations.SampleWordsDecodeRight
  decide

end Sys2Proof

/-! The checksum (40_framing_rx.md R91, R93): closed sums of the two accumulators, and the single changes that they
detect. -/

namespace Sys2Proof

/-! The accumulators as sums. -/

theorem CkAcc.add_a_toNat (k : CkAcc) (x : Byte) : (k.add x).a.toNat ≡ k.a.toNat + x.toNat [MOD 256] :=
  (BitVec.toNat_add k.a x).symm ▸ Nat.mod_modEq _ _

theorem CkAcc.add_b_toNat (k : CkAcc) (x : Byte) :
    (k.add x).b.toNat ≡ k.b.toNat + (k.a.toNat + x.toNat) [MOD 256] :=
  ((BitVec.toNat_add k.b (k.a + x)).symm ▸ Nat.mod_modEq _ _ : _ ≡ k.b.toNat + (k.a + x).toNat [MOD 256]).trans
    ((k.add_a_toNat x).add_left _)

theorem foldl_add_a_toNat (k : CkAcc) (p : List Byte) :
    (p.foldl CkAcc.add k).a.toNat ≡
      k.a.toNat + ∑ j ∈ Finset.range p.length, (p.getD j 0).toNat [MOD 256] := by
  induction p generalizing k with
  | nil => rfl
  | cons x p ih =>
    calc (p.foldl CkAcc.add (k.add x)).a.toNat
        ≡ (k.add x).a.toNat + ∑ j ∈ Finset.range p.length, (p.getD j 0).toNat [MOD 256] := ih _
      _ ≡ k.a.toNat + x.toNat + ∑ j ∈ Finset.range p.length, (p.getD j 0).toNat [MOD 256] :=
        (k.add_a_toNat x).add_right _
      _ = k.a.toNat + ∑ j ∈ Finset.range (x :: p).length, ((x :: p).getD j 0).toNat := by
        simp only [List.length_cons, Finset.sum_range_succ', List.getD_cons_succ, List.getD_cons_zero]
        ring

/-- Each byte enters `b` once for itself and once for every later byte. -/
theorem foldl_add_b_toNat (k : CkAcc) (p : List Byte) :
    (p.foldl CkAcc.add k).b.toNat ≡
      k.b.toNat + p.length * k.a.toNat +
        ∑ j ∈ Finset.range p.length, (p.length - j) * (p.getD j 0).toNat [MOD 256] := by
  induction p generalizing k with
  | nil => simpa using Nat.ModEq.refl _
  | cons x p ih =>
    calc (p.foldl CkAcc.add (k.add x)).b.toNat
        ≡ (k.add x).b.toNat + p.length * (k.add x).a.toNat +
            ∑ j ∈ Finset.range p.length, (p.length - j) * (p.getD j 0).toNat [MOD 256] := ih _
      _ ≡ k.b.toNat + (k.a.toNat + x.toNat) + p.length * (k.a.toNat + x.toNat) +
            ∑ j ∈ Finset.range p.length, (p.length - j) * (p.getD j 0).toNat [MOD 256] :=
        ((k.add_b_toNat x).add ((k.add_a_toNat x).mul_left _)).add_right _
      _ = k.b.toNat + (x :: p).length * k.a.toNat +
            ∑ j ∈ Finset.range (x :: p).length, ((x :: p).length - j) * ((x :: p).getD j 0).toNat := by
        simp only [List.length_cons, Finset.sum_range_succ', List.getD_cons_succ, List.getD_cons_zero,
          Nat.add_sub_add_right, Nat.sub_zero]
        ring

/-- Accumulator `a` is its start and the sum of the bytes. -/
theorem foldl_add_a (k : CkAcc) (p : List Byte) : (p.foldl CkAcc.add k).a = k.a + p.sum := by
  induction p generalizing k with
  | nil => simp
  | cons x p ih => rw [List.foldl_cons, ih, List.sum_cons, CkAcc.add, add_assoc]

/-- Accumulator `b` carries its start through unchanged. -/
theorem foldl_add_b (a b : Byte) (p : List Byte) :
    (p.foldl CkAcc.add ⟨a, b⟩).b = b + (p.foldl CkAcc.add ⟨a, 0⟩).b := by
  induction p generalizing a b with
  | nil => simp
  | cons x p ih =>
    simp only [List.foldl_cons, CkAcc.add]
    rw [ih, ih _ (0 + (a + x)), zero_add, add_assoc]

theorem ckAcc_a (t l : Byte) (p : List Byte) : (ckAcc t l p).a = t + l + p.sum := foldl_add_a _ p

/-! What the checksum detects (R93). -/

theorem cksum16_ne_of_a_ne {t l t' l' : Byte} {p p' : List Byte} (h : (ckAcc t l p).a ≠ (ckAcc t' l' p').a) :
    cksum16 t l p ≠ cksum16 t' l' p' :=
  fun heq => h (le16_inj.1 heq).1

/-- Exchanging two adjacent bytes moves `b` by their difference, whatever was accumulated before them. -/
theorem add_add_exchange_b_ne (k : CkAcc) {u v : Byte} (h : u ≠ v) :
    ((k.add u).add v).b ≠ ((k.add v).add u).b := by
  intro heq
  have heq : k.b + (k.a + u) + (k.a + u + v) = k.b + (k.a + v) + (k.a + v + u) := heq
  rw [add_right_comm k.a v u] at heq
  exact h (add_left_cancel (add_left_cancel (add_right_cancel heq)))

theorem add_add_exchange_a (k : CkAcc) (u v : Byte) : ((k.add u).add v).a = ((k.add v).add u).a :=
  add_right_comm k.a u v

/-- Settles O20: both sums by induction on the payload, the seeding being a first pass over type and length. -/
theorem checksumClosedForm : Obligations.ChecksumClosedForm := by
  intro t p h l
  have hl : l.toNat = p.length := by
    simp only [l, BitVec.toNat_ofNat]
    omega
  have hseed : CkAcc.add { a := t, b := t } l = (CkAcc.add { a := 0, b := 0 } t).add l := by simp [CkAcc.add]
  have ha : (CkAcc.add { a := t, b := t } l).a.toNat ≡ t.toNat + p.length [MOD 256] := hl ▸ CkAcc.add_a_toNat _ l
  have hb : (CkAcc.add { a := t, b := t } l).b.toNat ≡ t.toNat + (t.toNat + p.length) [MOD 256] :=
    hl ▸ CkAcc.add_b_toNat _ l
  refine ⟨?_, ?_, by rw [ckAcc, hseed]; rfl, le16_toNat _ _⟩
  · have hsum := (foldl_add_a_toNat (CkAcc.add { a := t, b := t } l) p).trans (ha.add_right _)
    exact (Nat.mod_eq_of_lt (BitVec.isLt _)).symm.trans hsum
  · have hsum := (foldl_add_b_toNat (CkAcc.add { a := t, b := t } l) p).trans ((hb.add (ha.mul_left _)).add_right _)
    refine (Nat.mod_eq_of_lt (BitVec.isLt _)).symm.trans (hsum.trans ?_)
    congr 1
    ring

/-- Settles O21: either change moves accumulator `a` by the difference of the two bytes. -/
theorem checksumDetectsOneChangedByte : Obligations.ChecksumDetectsOneChangedByte := by
  refine fun t l p => ⟨fun t' ht => cksum16_ne_of_a_ne ?_, fun i c hi hc => cksum16_ne_of_a_ne ?_⟩
  · rw [ckAcc_a, ckAcc_a]
    exact fun heq => ht (add_right_cancel (add_right_cancel heq))
  · rw [List.getD_eq_getElem p 0 hi] at hc
    have hp : p.set i p[i] = p := List.set_getElem_self hi
    rw [ckAcc_a, ckAcc_a, ← congrArg List.sum hp, List.sum_set, List.sum_set, if_pos hi, if_pos hi]
    exact fun heq => hc (add_left_cancel (add_right_cancel (add_left_cancel heq))).symm

/-- Settles O22: the exchange changes `b` at its place, and the later bytes carry the difference through. -/
theorem checksumDetectsAdjacentExchange : Obligations.ChecksumDetectsAdjacentExchange := by
  intro t l u v p q h
  have hsplit (x y : Byte) :
      ckAcc t l (p ++ [x, y] ++ q) = q.foldl CkAcc.add (((ckAcc t l p).add x).add y) := by simp [ckAcc]
  rw [hsplit, hsplit, foldl_add_a, foldl_add_a, foldl_add_b _ (CkAcc.b _), foldl_add_b _ (CkAcc.b _),
    add_add_exchange_a]
  exact ⟨rfl, fun heq => add_add_exchange_b_ne _ h (add_right_cancel heq)⟩

end Sys2Proof

/-! The step and its turns (00_scope.md R5, 42_commands.md R123), reset, and the mode decision. -/

namespace Sys2Proof.Machine

/-- The coming turns are `ts`. -/
def State.setTurns (s : State) (ts : List Turn) : State := { s with env := { s.env with turns := ts } }

/-- A listed turn is taken with the turns after it left to come. -/
theorem step_of_listed {s : State} {t : Turn} {ts : List Turn} (h : s.env.turns = t :: ts) :
    step s = takeTurn t (s.setTurns ts) :=
  step_of_turn h

/-- What CORE fetches does not depend on the turns to come. -/
theorem fetch_setTurns (s : State) (ts : List Turn) : fetch (s.setTurns ts) = fetch s := rfl

/-- RXQ.push (R80). -/
theorem exec_rxqPush (c : Byte) (s : State) :
    exec (.rxqPush c) s = .next (if s.rxq.length < rxqCap then { s with rxq := s.rxq ++ [c] } else s) := rfl

/-- The mode decision (70_reset_and_hazards.md R181). -/
theorem exec_boot {s : State} (h : s.top = .boot) :
    exec .boot s =
      .next { s with
        stayReq := s.env.bootPin == Config.bootPinStayLevel
        appWord := s.env.flash.readWord flashDefault appBase
        top :=
          if s.env.flash.readWord flashDefault appBase != erasedWord && !(s.env.bootPin == Config.bootPinStayLevel)
          then .app else .poll } := by
  change execBoot s = _
  simp only [execBoot, h, decide_true, whenEnabled_true]

/-- While CORE sends, the next step is a SEND. -/
theorem fetch_send {s : State} (h : s.top = .send) : fetch s = some .send := by simp [fetch, h]

theorem fetch_boot {s : State} (h : s.top = .boot) : fetch s = some .boot := by simp [fetch, h]

theorem fetch_halted {s : State} (h : s.top = .app ∨ s.top = .fault) : fetch s = none := by
  rcases h with h | h <;> simp [fetch, h]

theorem fetch_poll_nil {s : State} (h : s.top = .poll) (hq : s.rxq = []) : fetch s = some .rxqPop := by
  simp [fetch, h, hq]

theorem fetch_poll_cons {s : State} {c : Byte} {rest : List Byte} (h : s.top = .poll) (hq : s.rxq = c :: rest) :
    fetch s = some (decodeByte s.fst c) := by
  simp [fetch, h, hq]

theorem fetch_dispatch {s : State} (h : s.top = .dispatch) : fetch s = some (decodePacket s.pkt) := by
  simp [fetch, h]

theorem fetch_erase {s : State} (h : s.top = .flash)
    (hp : s.wfPhase = .eWait1 ∨ s.wfPhase = .eKey1 ∨ s.wfPhase = .eKey2 ∨ s.wfPhase = .eCfg ∨ s.wfPhase = .eWait2) :
    fetch s = some (.erase s.wfS) := by
  rcases hp with hp | hp | hp | hp | hp <;> simp only [fetch, h, hp]

theorem fetch_program {s : State} (h : s.top = .flash)
    (hp : s.wfPhase = .pWait1 ∨ s.wfPhase = .pKey1 ∨ s.wfPhase = .pKey2 ∨ s.wfPhase = .pCfg ∨ s.wfPhase = .pWord ∨
      s.wfPhase = .pWaitW) :
    fetch s = some (.program s.wfAddr s.wfI) := by
  rcases hp with hp | hp | hp | hp | hp | hp <;> simp only [fetch, h, hp]

theorem fetch_page {s : State} (h : s.top = .flash) (hp : s.wfPhase = .head) (hn : s.wfI.toNat < s.wfN.toNat)
    (hi : s.wfI.toNat < nBufPages) :
    fetch s = some (.sectorLookup (flashPageAddr (s.wfFpage.toNat + s.wfI.toNat))) := by
  simp only [fetch, h, hp]
  exact if_pos ⟨hn, hi⟩

theorem fetch_loop_end {s : State} (h : s.top = .flash) (hp : s.wfPhase = .head)
    (hn : ¬ (s.wfI.toNat < s.wfN.toNat ∧ s.wfI.toNat < nBufPages)) :
    ∃ lead len extra, fetch s = some (.writeflash lead len s.wfBpage s.wfFpage s.wfN extra) := by
  simp only [fetch, h, hp]
  exact ⟨_, _, _, if_neg hn⟩

/-- In App and in Fault CORE stays where it is (log 13). -/
theorem coreStep_halted {s : State} (h : s.top = .app ∨ s.top = .fault) : coreStep s = .next s := by
  simp only [coreStep, fetch_halted h]

/-- Where CORE does not poll, it runs what it fetches on the state as it is. -/
theorem coreStep_of_not_poll {s : State} {i : Instr} (ht : s.top ≠ .poll) (h : fetch s = some i) :
    coreStep s = exec i s := by
  rw [coreStep_of_fetch h, State.consume_of_not_poll ht]

/-- What the mode decision can do: latch its two inputs, and go to App or to Poll. -/
theorem coreStep_boot {s : State} (h : s.top = .boot) :
    ∃ stay word top, (top = .app ∨ top = .poll) ∧
      coreStep s = .next { s with stayReq := stay, appWord := word, top := top } := by
  refine ⟨_, _, _, ?_, (coreStep_of_not_poll (by simp [h]) (fetch_boot h)).trans (exec_boot h)⟩
  split <;> simp

/-- A poll of an empty queue leaves CORE as it is. -/
theorem coreStep_poll_nil {s : State} (h : s.top = .poll) (hq : s.rxq = []) : coreStep s = .next s := by
  have hc : s.consume = s := by rw [State.consume_of_poll h, hq]; cases s; cases hq; rfl
  rw [coreStep_of_fetch (fetch_poll_nil h hq), hc, exec_rxqPop_nil h hq]

/-- A poll of a queue that holds a byte is the byte-step that `fst` selects. -/
theorem coreStep_poll_cons {s : State} {c : Byte} {rest : List Byte} (h : s.top = .poll) (hq : s.rxq = c :: rest) :
    coreStep s = exec (decodeByte s.fst c) { s with rxq := rest } := by
  rw [coreStep_of_fetch (fetch_poll_cons h hq), State.consume_of_poll h, hq]
  rfl

/-- A step is CORE's where no turn is listed, else it is the listed agent's. -/
theorem step_cases (s : State) :
    (s.env.turns = [] ∧ step s = coreStep s) ∨
    ∃ t ts, s.env.turns = t :: ts ∧ step s = takeTurn t (s.setTurns ts) := by
  cases h : s.env.turns with
  | nil => exact .inl ⟨rfl, step_of_no_turns h⟩
  | cons t ts => exact .inr ⟨t, ts, rfl, step_of_listed h⟩

end Sys2Proof.Machine

namespace Sys2Proof

open Machine

/-- Settles O5: fetching and consuming do not see the list of turns. -/
theorem stepRunsTheFetchedInstruction : Obligations.StepRunsTheFetchedInstruction := by
  intro s i hf
  refine ⟨fun h => (step_of_no_turns h).trans (coreStep_of_fetch hf), fun ts h => ?_⟩
  exact (step_of_listed h).trans (coreStep_of_fetch ((fetch_setTurns s ts).trans hf))

/-- Settles O6: one clause for each value of `top`, and in Flash for each kind of phase. -/
theorem fetchIsSelectedByTop : Obligations.FetchIsSelectedByTop := by
  intro s
  refine ⟨fetch_boot, fetch_halted, fetch_poll_nil, ?_, fetch_dispatch, fetch_send, fun h => ?_⟩
  · intro c rest h hq i hi
    obtain rfl : decodeByte s.fst c = i := by simpa [decode] using hi
    exact fetch_poll_cons h hq
  · exact ⟨fetch_erase h, fetch_program h, fun hp => ⟨fun hn => fetch_page h hp hn.1 hn.2, fetch_loop_end h hp⟩⟩

/-- Settles O14. -/
theorem pushAppendsOrDrops : Obligations.PushAppendsOrDrops := exec_rxqPush

/-- Settles O53: the turn of LINE is one push. -/
theorem receiveInterruptTouchesOnlyTheQueue : Obligations.ReceiveInterruptTouchesOnlyTheQueue := by
  intro s c ts h
  have hpush : step s =
      .next (if s.rxq.length < 64 then { s.setTurns ts with rxq := s.rxq ++ [c] } else s.setTurns ts) := step_of_listed h
  rw [hpush]
  split <;> rfl

/-- Settles O49: the latched word is the little-endian word of the array at the application's base. -/
theorem bootDecidesTheMode : Obligations.BootDecidesTheMode := by
  intro s h stay word
  rw [exec_boot h]
  have hword : s.env.flash.readWord flashDefault appBase = word := rfl
  have hstay : (s.env.bootPin == Config.bootPinStayLevel) = stay := rfl
  have hcond : (word != erasedWord && !stay) = true ↔ stay = false ∧ word ≠ erasedWord := by simp [and_comm]
  simp only [hword, hstay, hcond]

/-- Settles O51. -/
theorem resetLeavesTheSpecifiedValues : Obligations.ResetLeavesTheSpecifiedValues := by
  refine ⟨rfl, rfl, rfl, rfl, rfl, fun i hi => ?_, rfl, rfl, fun page a hp ha => ?_⟩
  · simp [Packet.byte, State.reset, hi]
  · exact stageByte_eq_some.2 ⟨⟨Nat.lt_succ_of_le hp, Nat.lt_succ_of_le ha⟩, rfl⟩

/-- Settles O52: the reset keeps the environment, and with it the flash array. -/
theorem hardwareResetKeepsTheFlash : Obligations.HardwareResetKeepsTheFlash :=
  fun _ _ h => ⟨_, step_of_listed h, rfl, fun _ => rfl⟩

end Sys2Proof

/-! The receive path (40_framing_rx.md R80 to R94): a byte-step as a function of the state, bursts of bytes while CORE
polls and while it does not, and the reception of a whole frame. -/

namespace Sys2Proof.Machine

/-! One byte. -/

/-- The byte-step that `fst` selects, as the state that it answers (R83 to R89). -/
def State.afterByte (c : Byte) (s : State) : State :=
  match s.fst with
  | .waitSync1 => if c = sync1 then { s with fst := .waitSync2 } else { s with rxCount := 0 }
  | .waitSync2 => { s with fst := if c = sync2 then .readType else .waitSync1 }
  | .readType =>
    { s with pkt := { type := c, length := 0, payload := Vector.replicate 32 0, cksum := 0 }, fst := .readLength }
  | .readLength =>
    if maxPayload < c.toNat then { s with pkt := { s.pkt with length := c }, fst := .waitSync1 }
    else if c = 0 then { s with pkt := { s.pkt with length := c }, fst := .readChecksumLow }
    else { s with pkt := { s.pkt with length := c }, rxCount := 0, fst := .readPayload }
  | .readPayload =>
    { s with
      pkt := s.pkt.put s.rxCount.toNat c
      rxCount := s.rxCount + 1
      fst := if s.rxCount.toNat + 1 = s.pkt.length.toNat then .readChecksumLow else .readPayload }
  | .readChecksumLow =>
    { s with pkt := { s.pkt with cksum := le16 c (hi8 s.pkt.cksum) }, fst := .readChecksumHigh }
  | .readChecksumHigh =>
    let ok := decide (le16 (lo8 s.pkt.cksum) c = cksum16 s.pkt.type s.pkt.length s.pkt.valid)
    { s with
      pkt := { s.pkt with cksum := le16 (lo8 s.pkt.cksum) c }
      ckA := (ckAcc s.pkt.type s.pkt.length s.pkt.valid).a
      ckB := (ckAcc s.pkt.type s.pkt.length s.pkt.valid).b
      ckOk := ok
      fst := .waitSync1
      top := if ok then .dispatch else .poll
      env := if ok then s.env else { s.env with trace := s.env.trace ++ [.diag .checksumFail] } }

/-- The framer's indices lie inside the payload register (log 15). -/
def State.byteReady (s : State) : Prop :=
  (s.fst = .readPayload → s.rxCount.toNat < maxPayload) ∧ (s.fst = .readChecksumHigh → s.pkt.length.toNat ≤ maxPayload)

theorem State.rxInv.byteReady {s : State} (h : s.rxInv) : s.byteReady :=
  ⟨fun hf => (h.2.1 hf).trans_le (h.2.2 (.inl hf)), fun hf => h.2.2 (.inr (.inr hf))⟩

theorem exec_decodeByte {s : State} (c : Byte) (hp : s.top = .poll) (hr : s.byteReady) :
    exec (decodeByte s.fst c) s = .next (s.afterByte c) := by
  have select {f : Fst} (hf : s.fst = f) : exec (decodeByte s.fst c) s = exec (decodeByte f c) s := by rw [hf]
  unfold State.afterByte
  split
  case h_1 hf => exact (select hf).trans (exec_stepWaitSync1 c hp hf)
  case h_2 hf => exact (select hf).trans (exec_stepWaitSync2 c hp hf)
  case h_3 hf => exact (select hf).trans (exec_stepReadType c hp hf)
  case h_4 hf => exact (select hf).trans (exec_stepReadLength c hp hf)
  case h_5 hf => exact (select hf).trans (exec_stepReadPayload c hp hf (hr.1 hf))
  case h_6 hf => exact (select hf).trans (exec_stepReadChecksumLow c hp hf)
  case h_7 hf => exact (select hf).trans (exec_stepReadChecksumHigh c hp hf (hr.2 hf) rfl)

/-- A byte-step that answers a next state was enabled, with its indices in range. -/
theorem byteReady_of_exec {s t : State} {c : Byte} (h : exec (decodeByte s.fst c) s = .next t) :
    s.top = .poll ∧ s.byteReady := by
  unfold State.byteReady
  cases hf : s.fst <;> rw [hf] at h <;> obtain ⟨hp, -, h⟩ := byteStepAt_next h
  case readPayload =>
    refine ⟨hp, fun _ => ?_, nofun⟩
    by_contra hlt
    rw [if_neg hlt] at h
    cases h
  case readChecksumHigh =>
    refine ⟨hp, nofun, fun _ => ?_⟩
    by_contra hle
    rw [if_neg hle] at h
    cases h
  all_goals exact ⟨hp, nofun, nofun⟩

theorem exec_decodeByte_next {s t : State} {c : Byte} (h : exec (decodeByte s.fst c) s = .next t) :
    s.top = .poll ∧ s.byteReady ∧ t = s.afterByte c := by
  obtain ⟨hp, hr⟩ := byteReady_of_exec h
  exact ⟨hp, hr, (next_inj ((exec_decodeByte c hp hr).symm.trans h)).symm⟩

/-- A byte-step moves the framer and the packet register; it hands a packet over or reports it, and does nothing
else. -/
theorem afterByte_frame (c : Byte) (s : State) :
    ∃ es, (es = [] ∨ es = [.diag .checksumFail]) ∧
      s.afterByte c =
        { s with
          fst := (s.afterByte c).fst, top := (s.afterByte c).top, pkt := (s.afterByte c).pkt
          rxCount := (s.afterByte c).rxCount, ckA := (s.afterByte c).ckA, ckB := (s.afterByte c).ckB
          ckOk := (s.afterByte c).ckOk, env := { s.env with trace := s.env.trace ++ es } } := by
  have hnil : s.env = { s.env with trace := s.env.trace ++ [] } := by rw [List.append_nil]
  cases hf : s.fst <;> simp only [State.afterByte, hf]
  case waitSync1 => exact ⟨[], .inl rfl, by split <;> rw [← hnil]⟩
  case readLength => exact ⟨[], .inl rfl, by split_ifs <;> rw [← hnil]⟩
  case readChecksumHigh =>
    split
    · exact ⟨[], .inl rfl, by rw [← hnil]⟩
    · exact ⟨_, .inr rfl, rfl⟩
  all_goals exact ⟨[], .inl rfl, by rw [← hnil]⟩

/-- After a byte-step of a polling CORE, CORE polls or a packet waits to be dispatched. -/
theorem afterByte_top {s : State} (c : Byte) (hp : s.top = .poll) :
    (s.afterByte c).top = .poll ∨ (s.afterByte c).top = .dispatch := by
  cases hf : s.fst <;> simp only [State.afterByte, hf]
  case waitSync1 => split <;> exact .inl hp
  case readLength => split_ifs <;> exact .inl hp
  case readChecksumHigh => split <;> simp
  all_goals exact .inl hp

@[simp] theorem afterByte_rxq (c : Byte) (s : State) : (s.afterByte c).rxq = s.rxq := by
  obtain ⟨es, -, h⟩ := afterByte_frame c s
  rw [h]

/-- A byte-step does not see the turns to come. -/
theorem afterByte_setTurns (c : Byte) (s : State) (ts : List Turn) :
    (s.setTurns ts).afterByte c = (s.afterByte c).setTurns ts := by
  have hf : (s.setTurns ts).fst = s.fst := rfl
  cases h : s.fst <;> simp only [State.afterByte, h, hf]
  case waitSync1 => split <;> rfl
  case readLength => split_ifs <;> rfl
  case readChecksumHigh =>
    by_cases hck : le16 (lo8 s.pkt.cksum) c = cksum16 s.pkt.type s.pkt.length s.pkt.valid
    · simp [State.setTurns, hck]
    · simp [State.setTurns, hck]
  all_goals rfl

/-- What a step of a polling CORE can do: nothing on an empty queue, else the byte-step on the oldest byte. -/
theorem poll_cases {s t : State} (h : s.top = .poll) (ht : coreStep s = .next t) :
    (s.rxq = [] ∧ t = s) ∨
    ∃ c rest, s.rxq = c :: rest ∧ s.byteReady ∧ t = State.afterByte c { s with rxq := rest } := by
  cases hq : s.rxq with
  | nil => exact .inl ⟨rfl, (next_inj ((coreStep_poll_nil h hq).symm.trans ht)).symm⟩
  | cons c rest =>
    obtain ⟨-, hr, ht⟩ := exec_decodeByte_next (s := { s with rxq := rest }) ((coreStep_poll_cons h hq).symm.trans ht)
    exact .inr ⟨c, rest, rfl, hr, ht⟩

/-! Bursts of bytes. -/

/-- A byte that arrives while CORE polls with an empty queue is applied, and the rest arrives after it. -/
theorem receiveBytes_cons_poll {s : State} (c : Byte) (cs : List Byte) (hp : s.top = .poll) (hq : s.rxq = [])
    (hr : s.byteReady) : receiveBytes (c :: cs) s = receiveBytes cs (s.afterByte c) := by
  rw [receiveBytes, receiveByte_poll c s hp hq, exec_decodeByte c hp hr, andThen_next]

/-- While CORE does not poll, a burst of bytes fills the queue up to its capacity (R80). -/
theorem receiveBytes_not_poll (bytes : List Byte) {s : State} (h : s.top ≠ .poll) :
    receiveBytes bytes s = .next { s with rxq := s.rxq ++ bytes.take (rxqCap - s.rxq.length) } := by
  induction bytes generalizing s with
  | nil => simp [receiveBytes]
  | cons c cs ih =>
    rw [receiveBytes, receiveByte_not_poll c s h, andThen_next]
    split
    · rename_i hlt
      have hroom : rxqCap - s.rxq.length = rxqCap - (s.rxq ++ [c]).length + 1 := by
        rw [List.length_append, List.length_singleton]
        omega
      rw [ih (s := s.setRxq (s.rxq ++ [c])) h, hroom, List.take_succ_cons, State.setRxq_rxq, List.append_assoc]
      rfl
    · rename_i hge
      rw [ih h, Nat.sub_eq_zero_of_le (Nat.not_lt.1 hge), List.take_zero, List.take_zero]

/-- What holds of every state, of every push and of every poll, and of what comes after each other, holds of a burst. -/
theorem receiveBytes_rel {R : State → State → Prop} (hrefl : ∀ s, R s s) (htrans : ∀ s t u, R s t → R t u → R s u)
    (hpush : ∀ c s t, exec (.rxqPush c) s = .next t → R s t)
    (hpop : ∀ s t, s.top = .poll → exec .rxqPop s = .next t → R s t) {bytes : List Byte} {s t : State}
    (h : receiveBytes bytes s = .next t) : R s t := by
  induction bytes generalizing s with
  | nil => exact next_inj h ▸ hrefl s
  | cons c cs ih =>
    obtain ⟨u, hu, htail⟩ := andThen_eq_next.1 h
    obtain ⟨v, hv, hpoll⟩ := andThen_eq_next.1 hu
    refine htrans s v t (hpush c s v hv) (htrans v u t ?_ (ih htail))
    split at hpoll
    · rename_i hp
      exact hpop v u hp hpoll
    · exact next_inj hpoll ▸ hrefl v

/-! A frame. -/

/-- The sync bytes and the type byte make a fresh packet (R83 to R85). -/
theorem receiveBytes_to_length {s : State} (t : Byte) (rest : List Byte) (hp : s.top = .poll)
    (hf : s.fst = .waitSync1) (hq : s.rxq = []) :
    receiveBytes (sync1 :: sync2 :: t :: rest) s =
      receiveBytes rest { s with
        pkt := { type := t, length := 0, payload := Vector.replicate 32 0, cksum := 0 }, fst := .readLength } := by
  have h1 : s.afterByte sync1 = { s with fst := .waitSync2 } := by simp [State.afterByte, hf]
  rw [receiveBytes_cons_poll _ _ hp hq ⟨by simp [hf], by simp [hf]⟩, h1,
    receiveBytes_cons_poll (s := { s with fst := .waitSync2 }) _ _ hp hq ⟨nofun, nofun⟩]
  exact receiveBytes_cons_poll (s := { s with fst := .readType }) t rest hp hq ⟨nofun, nofun⟩

/-- The four bytes before the payload make a fresh packet of the announced length (R83 to R86). -/
theorem receiveBytes_header {s : State} (t l : Byte) (hp : s.top = .poll) (hf : s.fst = .waitSync1) (hq : s.rxq = [])
    (hl : l.toNat ≤ maxPayload) (rest : List Byte) :
    receiveBytes (sync1 :: sync2 :: t :: l :: rest) s =
      receiveBytes rest { s with
        pkt := { type := t, length := l, payload := Vector.replicate 32 0, cksum := 0 }
        rxCount := if l = 0 then s.rxCount else 0
        fst := if l = 0 then .readChecksumLow else .readPayload } := by
  rw [receiveBytes_to_length t (l :: rest) hp hf hq,
    receiveBytes_cons_poll l rest (by exact hp) (by exact hq) (by exact ⟨nofun, nofun⟩)]
  simp only [State.afterByte, if_neg (Nat.not_lt.2 hl)]
  split <;> rfl

/-- A second byte that is not the second sync byte sends the framer back (R84). -/
theorem receiveBytes_badSync2 {s : State} {x : Byte} (hp : s.top = .poll) (hf : s.fst = .waitSync1) (hq : s.rxq = [])
    (hx : x ≠ sync2) : receiveBytes [sync1, x] s = .next { s with fst := .waitSync1 } := by
  have h1 : s.afterByte sync1 = { s with fst := .waitSync2 } := by simp [State.afterByte, hf]
  rw [receiveBytes_cons_poll _ _ hp hq ⟨by simp [hf], by simp [hf]⟩, h1,
    receiveBytes_cons_poll (s := { s with fst := .waitSync2 }) _ _ hp hq ⟨nofun, nofun⟩]
  simp only [State.afterByte, if_neg hx]
  rfl

/-- An over-long length byte sends the framer back (R86). -/
theorem receiveBytes_overLength {s : State} (t : Byte) {l : Byte} (hp : s.top = .poll) (hf : s.fst = .waitSync1)
    (hq : s.rxq = []) (hl : maxPayload < l.toNat) :
    receiveBytes [sync1, sync2, t, l] s =
      .next { s with
        pkt := { type := t, length := l, payload := Vector.replicate 32 0, cksum := 0 }, fst := .waitSync1 } := by
  rw [receiveBytes_to_length t [l] hp hf hq,
    receiveBytes_cons_poll l [] (by exact hp) (by exact hq) (by exact ⟨nofun, nofun⟩)]
  simp only [State.afterByte, if_pos hl]
  rfl

/-- The payload bytes are stored one after another, and the last one ends the payload (R87). -/
theorem receiveBytes_payload {bs : List Byte} {s : State} (hp : s.top = .poll) (hf : s.fst = .readPayload)
    (hq : s.rxq = []) (hne : bs ≠ []) (hlen : s.rxCount.toNat + bs.length = s.pkt.length.toNat)
    (hl : s.pkt.length.toNat ≤ maxPayload) :
    ∃ n, ∀ rest, receiveBytes (bs ++ rest) s =
      receiveBytes rest
        { s with pkt := s.pkt.putAll s.rxCount.toNat bs, rxCount := n, fst := .readChecksumLow } := by
  induction bs generalizing s with
  | nil => exact absurd rfl hne
  | cons c cs ih =>
    rw [List.length_cons] at hlen
    have hl' : s.pkt.length.toNat ≤ 32 := hl
    have hr : s.byteReady := ⟨fun _ => show s.rxCount.toNat < 32 by omega, by simp [hf]⟩
    have hafter : s.afterByte c =
        { s with
          pkt := s.pkt.put s.rxCount.toNat c
          rxCount := s.rxCount + 1
          fst := if s.rxCount.toNat + 1 = s.pkt.length.toNat then .readChecksumLow else .readPayload } := by
      simp only [State.afterByte, hf]
    have hcount : (s.rxCount + 1).toNat = s.rxCount.toNat + 1 := by
      rw [BitVec.toNat_add]
      exact Nat.mod_eq_of_lt (show s.rxCount.toNat + 1 < 64 by omega)
    cases cs with
    | nil =>
      refine ⟨s.rxCount + 1, fun rest => ?_⟩
      rw [List.cons_append, receiveBytes_cons_poll _ _ hp hq hr, hafter, if_pos (by simpa using hlen)]
      rfl
    | cons d ds =>
      rw [List.length_cons] at hlen
      rw [if_neg (by omega)] at hafter
      obtain ⟨n, hn⟩ := ih (s := s.afterByte c) (by rw [hafter]; exact hp) (by rw [hafter])
        (by rw [hafter]; exact hq) nofun (by rw [hafter]; simp only [hcount, Packet.put_length, List.length_cons]; omega)
        (by rw [hafter]; exact hl)
      refine ⟨n, fun rest => ?_⟩
      rw [List.cons_append, receiveBytes_cons_poll _ _ hp hq hr, hn rest, hafter]
      simp only [hcount, Packet.putAll]

/-- The payload stored over a fresh packet is the frame's. -/
theorem putAll_fresh (t : Byte) (p : List Byte) :
    Packet.putAll { type := t, length := BitVec.ofNat 8 p.length, payload := Vector.replicate 32 0, cksum := 0 } 0 p =
      { Packet.ofFrame t p with cksum := 0 } := by
  refine Packet.ext_byte (by simp [Packet.ofFrame]) (by simp [Packet.ofFrame]) (by simp) fun i hi => ?_
  have hbyte : Packet.byte { Packet.ofFrame t p with cksum := 0 } i = p.getD i 0 := Packet.byte_ofFrame t p hi
  rw [Packet.byte_putAll _ _ _ _ hi, hbyte, Nat.sub_zero, Nat.zero_add]
  split
  · rfl
  · rename_i hge
    rw [List.getD_eq_default p 0 (by omega)]
    simp [Packet.byte, hi]

/-- The bytes of a frame before its checksum, in whatever way the frame goes on (R83 to R87). -/
theorem receiveBytes_body {s : State} (t : Byte) {p : List Byte} (hlen : p.length ≤ 32) (hp : s.top = .poll)
    (hf : s.fst = .waitSync1) (hq : s.rxq = []) :
    ∃ n, ∀ rest, receiveBytes ([sync1, sync2, t, BitVec.ofNat 8 p.length] ++ p ++ rest) s =
      receiveBytes rest
        { s with pkt := { Packet.ofFrame t p with cksum := 0 }, rxCount := n, fst := .readChecksumLow } := by
  have hl : (BitVec.ofNat 8 p.length).toNat = p.length := by
    rw [BitVec.toNat_ofNat]
    omega
  have hheader (rest : List Byte) :=
    receiveBytes_header t (BitVec.ofNat 8 p.length) hp hf hq (hl.trans_le hlen) (p ++ rest)
  cases p with
  | nil => exact ⟨_, fun rest => (hheader rest).trans (by rw [← putAll_fresh]; rfl)⟩
  | cons c cs =>
    have hnz : BitVec.ofNat 8 (c :: cs).length ≠ 0 := by
      intro h0
      rw [h0] at hl
      simp at hl
    simp only [if_neg hnz] at hheader
    obtain ⟨n, hn⟩ := receiveBytes_payload (bs := c :: cs)
      (s := { s with
        pkt := { type := t, length := BitVec.ofNat 8 (c :: cs).length, payload := Vector.replicate 32 0, cksum := 0 }
        rxCount := 0, fst := .readPayload })
      hp rfl hq nofun (by rw [hl]; exact Nat.zero_add _) (hl.trans_le hlen)
    refine ⟨n, fun rest => ?_⟩
    rw [List.append_assoc]
    refine (hheader rest).trans ((hn rest).trans ?_)
    rw [← putAll_fresh]
    rfl

/-- A frame with all announced bytes present, up to the low byte of its checksum. -/
theorem receiveBytes_to_checksumHigh {s : State} (t : Byte) {p : List Byte} (lo : Byte) (hlen : p.length ≤ 32)
    (hp : s.top = .poll) (hf : s.fst = .waitSync1) (hq : s.rxq = []) :
    ∃ n, ∀ rest, receiveBytes ([sync1, sync2, t, BitVec.ofNat 8 p.length] ++ p ++ lo :: rest) s =
      receiveBytes rest
        { s with
          pkt := { Packet.ofFrame t p with cksum := le16 lo 0 }, rxCount := n, fst := .readChecksumHigh } := by
  obtain ⟨n, hn⟩ := receiveBytes_body (s := s) t hlen hp hf hq
  refine ⟨n, fun rest => (hn (lo :: rest)).trans ?_⟩
  rw [receiveBytes_cons_poll
    (s := { s with pkt := { Packet.ofFrame t p with cksum := 0 }, rxCount := n, fst := .readChecksumLow })
    lo rest hp hq ⟨nofun, nofun⟩]
  have hzero : hi8 (0 : Half) = 0 := by decide
  simp only [State.afterByte, hzero]

/-- A frame with all announced bytes present is handed over or reported, by its checksum (R89, R90). -/
theorem receiveBytes_frame {s : State} (t : Byte) {p : List Byte} (lo hi : Byte) (hlen : p.length ≤ 32)
    (hp : s.top = .poll) (hf : s.fst = .waitSync1) (hq : s.rxq = []) {ok : Bool}
    (hok : ok = decide (le16 lo hi = cksum16 t (BitVec.ofNat 8 p.length) p)) :
    ∃ n, ∀ rest, receiveBytes ([sync1, sync2, t, BitVec.ofNat 8 p.length] ++ p ++ lo :: hi :: rest) s =
      receiveBytes rest
        { s with
          pkt := { Packet.ofFrame t p with cksum := le16 lo hi }
          rxCount := n
          ckA := (ckAcc t (BitVec.ofNat 8 p.length) p).a
          ckB := (ckAcc t (BitVec.ofNat 8 p.length) p).b
          ckOk := ok
          top := if ok then .dispatch else .poll
          env := if ok then s.env else { s.env with trace := s.env.trace ++ [.diag .checksumFail] } } := by
  obtain ⟨n, hn⟩ := receiveBytes_to_checksumHigh (s := s) t lo hlen hp hf hq
  refine ⟨n, fun rest => (hn (hi :: rest)).trans ?_⟩
  have hl : (Packet.ofFrame t p).length.toNat ≤ maxPayload := (Packet.length_ofFrame t hlen).trans_le hlen
  have hvalid : Packet.valid { Packet.ofFrame t p with cksum := le16 lo 0 } = p := Packet.valid_ofFrame t p hlen
  rw [receiveBytes_cons_poll
    (s := { s with pkt := { Packet.ofFrame t p with cksum := le16 lo 0 }, rxCount := n, fst := .readChecksumHigh })
    hi rest hp hq ⟨nofun, fun _ => hl⟩]
  subst hok
  simp only [State.afterByte, lo8_le16, hf]
  rw [hvalid]
  rfl

/-! The elementary turns of a burst. -/

/-- A byte is delivered by a turn of LINE and applied by the turn of CORE after it. -/
theorem run_line_core {s : State} (c : Byte) (ts : List Turn) (hp : s.top = .poll) (hq : s.rxq = [])
    (hr : s.byteReady) :
    Sys2Proof.core.run 2 (s.setTurns (.line c :: .core :: ts)) = .next ((s.afterByte c).setTurns ts) := by
  have hline : step (s.setTurns (.line c :: .core :: ts)) = .next { s.setTurns (.core :: ts) with rxq := [c] } := by
    rw [step_of_listed rfl, takeTurn, exec_rxqPush]
    simp [State.setTurns, hq]
  have hcore : step { s.setTurns (.core :: ts) with rxq := [c] } = .next ((s.afterByte c).setTurns ts) := by
    have hs : { s.setTurns ts with rxq := [] } = s.setTurns ts := by
      rw [State.ext_iff]
      simp [State.setTurns, hq]
    rw [step_of_listed rfl]
    refine (coreStep_poll_cons (s := { s.setTurns ts with rxq := [c] }) hp rfl).trans ?_
    change exec (decodeByte s.fst c) { s.setTurns ts with rxq := [] } = _
    rw [hs, ← afterByte_setTurns]
    exact exec_decodeByte (s := s.setTurns ts) c hp hr
  rw [run_succ_of_step hline, run_succ_of_step hcore, run_zero]

/-- One turn of LINE and one of CORE for each byte. -/
def elementaryTurns (bytes : List Byte) : List Turn := bytes.flatMap fun c => [.line c, .core]

/-- A burst after which CORE still polls is received by its elementary turns. -/
theorem run_elementaryTurns {bytes : List Byte} {s u : State} (ts : List Turn) (hp : s.top = .poll) (hq : s.rxq = [])
    (h : receiveBytes bytes s = .next u) (hu : u.top = .poll) :
    Sys2Proof.core.run (2 * bytes.length) (s.setTurns (elementaryTurns bytes ++ ts)) = .next (u.setTurns ts) := by
  induction bytes generalizing s with
  | nil => cases h; rfl
  | cons c cs ih =>
    obtain ⟨v, hv, htail⟩ := andThen_eq_next.1 h
    obtain ⟨-, hr, rfl⟩ := exec_decodeByte_next ((receiveByte_poll c s hp hq).symm.trans hv)
    have hpv : (s.afterByte c).top = .poll := by
      by_contra hne
      rw [receiveBytes_not_poll cs hne] at htail
      exact hne ((congrArg State.top (next_inj htail)).trans hu)
    have hbyte := run_line_core c (elementaryTurns cs ++ ts) hp hq hr
    rw [List.length_cons, Nat.mul_succ, Nat.add_comm]
    exact (run_add hbyte _).trans (ih hpv ((afterByte_rxq c s).trans hq) htail)

end Sys2Proof.Machine

namespace Sys2Proof

open Machine

/-- The bytes of a frame, the checksum's two bytes last. -/
theorem encode_frame_append (t : Byte) (p rest : List Byte) :
    encode (.frame t p) ++ rest =
      [sync1, sync2, t, BitVec.ofNat 8 p.length] ++ p ++
        lo8 (cksum16 t (BitVec.ofNat 8 p.length) p) :: hi8 (cksum16 t (BitVec.ofNat 8 p.length) p) :: rest := by
  simp [encode, frameBytes]

/-- A well-formed frame yields its packet, with whatever bytes follow (R90). -/
theorem receiveBytes_encode_frame {s : State} (t : Byte) {p : List Byte} (hlen : p.length ≤ 32) (hp : s.top = .poll)
    (hf : s.fst = .waitSync1) (hq : s.rxq = []) :
    ∃ n, receiveBytes (encode (.frame t p)) s =
      .next { s with
        pkt := Packet.ofFrame t p, rxCount := n, ckA := (ckAcc t (BitVec.ofNat 8 p.length) p).a
        ckB := (ckAcc t (BitVec.ofNat 8 p.length) p).b, ckOk := true, top := .dispatch } := by
  obtain ⟨n, hn⟩ := receiveBytes_frame (s := s) t (p := p) (lo8 (cksum16 t (BitVec.ofNat 8 p.length) p))
    (hi8 (cksum16 t (BitVec.ofNat 8 p.length) p)) hlen hp hf hq (ok := true) (by simp)
  refine ⟨n, ?_⟩
  rw [← List.append_nil (encode _), encode_frame_append]
  refine (hn []).trans ?_
  rw [le16_lo8_hi8]
  rfl

/-- Settles O9. -/
theorem readTypeStep : Obligations.ReadTypeStep :=
  fun c _ hp hf => ⟨_, exec_stepReadType c hp hf, rfl, rfl, rfl, rfl, fun i hi => by simp [Packet.byte, hi]⟩

/-- Settles O10. -/
theorem readLengthStep : Obligations.ReadLengthStep :=
  fun c _ hp hf => exec_stepReadLength c hp hf

/-- Settles O13: the comparison decides between the two outcomes. -/
theorem readChecksumHighStep : Obligations.ReadChecksumHighStep :=
  fun c s hp hf hl => ⟨_, exec_stepReadChecksumHigh c hp hf hl rfl, hi8_le16 _ c, lo8_le16 (lo8 s.pkt.cksum) c,
    rfl, rfl, rfl, rfl⟩

/-- Settles O16: the checksum of the frame matches, so its packet is handed over. -/
theorem frameYieldsItsPacket : Obligations.FrameYieldsItsPacket := by
  intro t p s hlen hp hf hq
  obtain ⟨n, hn⟩ := receiveBytes_encode_frame (s := s) t hlen hp hf hq
  exact ⟨_, hn, rfl, rfl, rfl, fun i hi => Packet.byte_ofFrame t p hi, rfl⟩

/-- Settles O17: the burst fills the queue up to its capacity. -/
theorem frameWhileNotPollingOnlyQueues : Obligations.FrameWhileNotPollingOnlyQueues := by
  intro t p s hp hq
  refine (receiveBytes_not_poll (frameBytes t p) hp).trans ?_
  rw [List.take_append, List.take_of_length_le hq]
  rfl

/-- Settles O18: CORE polls up to the last byte of the frame, which may hand the packet over. -/
theorem frameTurnIsItsElementaryTurns : Obligations.FrameTurnIsItsElementaryTurns := by
  intro t p ts s hlen hp hf hq bytes
  obtain ⟨n, hn⟩ := receiveBytes_to_checksumHigh (s := s.setTurns ts) t (p := p)
    (lo8 (cksum16 t (BitVec.ofNat 8 p.length) p)) hlen hp hf hq
  set u : State := { s.setTurns ts with
    pkt := { Packet.ofFrame t p with cksum := le16 (lo8 (cksum16 t (BitVec.ofNat 8 p.length) p)) 0 }
    rxCount := n, fst := .readChecksumHigh } with hu
  set body : List Byte := [sync1, sync2, t, BitVec.ofNat 8 p.length] ++ p ++
    [lo8 (cksum16 t (BitVec.ofNat 8 p.length) p)] with hbody
  set last : Byte := hi8 (cksum16 t (BitVec.ofNat 8 p.length) p)
  have hbytes : bytes = body ++ [last] := by
    rw [hbody, List.append_assoc]
    exact (List.append_nil _).symm.trans (encode_frame_append t p [])
  have hr : u.byteReady := ⟨nofun, fun _ => (Packet.length_ofFrame t hlen).trans_le hlen⟩
  have hframe : receiveBytes bytes (s.setTurns ts) = .next (u.afterByte last) := by
    rw [hbytes, hbody, List.append_assoc]
    exact (hn [last]).trans (receiveBytes_cons_poll last [] hp hq hr)
  have hbodyRun := run_elementaryTurns (elementaryTurns [last] ++ ts) (s := s.setTurns ts) hp hq (hn []) hp
  have hlastRun := run_line_core (s := u) last ts hp hq hr
  have hrun := (run_add hbodyRun _).trans hlastRun
  have hturns : elementaryTurns bytes = elementaryTurns body ++ elementaryTurns [last] := by
    rw [hbytes, elementaryTurns, List.flatMap_append]
    rfl
  have hsteps : 2 * bytes.length = 2 * body.length + 2 := by
    rw [hbytes, List.length_append]
    rfl
  rw [← List.append_assoc, ← hturns, ← hsteps] at hrun
  have hturn : step (s.setTurns (.frame t p :: ts)) = .next (u.afterByte last) := 
    (step_of_listed (t := .frame t p) (ts := ts) rfl).trans hframe
  refine hrun.trans (Eq.trans ?_ hturn.symm)
  rw [← afterByte_setTurns]
  rfl

/-- Settles O19: each of the three malformed beginnings leaves the framer hunting with an empty queue. -/
theorem nextFrameSurvivesAMalformedOne : Obligations.NextFrameSurvivesAMalformedOne := by
  intro bad ds t p s hbad hlen hp hf hq
  have hunting : ∃ u, receiveBytes bad s = .next u ∧ u.top = .poll ∧ u.fst = .waitSync1 ∧ u.rxq = [] ∧
      u.env = { s.env with trace := s.env.trace ++ ds } := by
    have hnil : s.env = { s.env with trace := s.env.trace ++ [] } := by rw [List.append_nil]
    rcases hbad with ⟨x, hx, rfl, rfl⟩ | ⟨t', l, hl, rfl, rfl⟩ | ⟨t', q, lo, hi, hqlen, hck, rfl, rfl⟩
    · exact ⟨_, receiveBytes_badSync2 hp hf hq hx, hp, rfl, hq, hnil⟩
    · exact ⟨_, receiveBytes_overLength t' hp hf hq hl, hp, rfl, hq, hnil⟩
    · obtain ⟨n, hn⟩ := receiveBytes_frame (s := s) t' lo hi hqlen hp hf hq (decide_eq_false hck).symm
      exact ⟨_, hn [], rfl, hf, hq, rfl⟩
  obtain ⟨u, hu, htop, hfst, hrxq, henv⟩ := hunting
  obtain ⟨n, hn⟩ := receiveBytes_encode_frame (s := u) t hlen htop hfst hrxq
  have hall : receiveBytes (bad ++ encode (.frame t p)) s = receiveBytes (encode (.frame t p)) u := by
    rw [receiveBytes_append, hu, andThen_next]
  exact ⟨_, hall.trans hn, rfl, hfst, hrxq, rfl, rfl, fun i hi => Packet.byte_ofFrame t p hi, henv⟩

end Sys2Proof

/-! The commands (42_commands.md R113 to R127): what each dispatched command answers, the replies it builds, and which
commands reply at all. -/

namespace Sys2Proof

/-- The packet that GETINFO builds (R113). -/
def Packet.infoReply (p : Packet) : Packet :=
  let half (n : Nat) := halfBytes (BitVec.ofNat 16 n)
  { (p.putCmd 1 (half pageSize ++ half nBufPages ++ half nFlashPages ++ half flashStartPage)).putCmd 21 [version] with
    length := infoReplyLen }

/-- The packet that GETMAPPING builds (R114). -/
def Packet.mapReply (p : Packet) : Packet := { p.putCmd 1 mappingTable with length := mapReplyLen }

theorem Packet.infoReply_frame (p : Packet) : p.infoReply = { p with length := 24, payload := p.infoReply.payload } := by
  rw [Packet.infoReply]
  simp only [Packet.putCmd_type, Packet.putCmd_cksum]

theorem Packet.mapReply_frame (p : Packet) : p.mapReply = { p with length := 9, payload := p.mapReply.payload } := by
  rw [Packet.mapReply]
  simp only [Packet.putCmd_type, Packet.putCmd_cksum]

theorem Packet.byte_infoReply (p : Packet) {i : Nat} (h : i < 32) :
    p.infoReply.byte i =
      (([(3, 0x00), (4, 0x04), (5, 0x0A), (6, 0x00), (7, 0x00), (8, 0x04), (9, 0x10), (10, 0x00), (23, 0x10)] :
          List (Nat × Byte)).lookup i).getD (p.byte i) := by
  rw [Packet.infoReply, Packet.byte_withLength, Packet.byte_putCmd _ _ _ _ h, Packet.byte_putCmd _ _ _ _ h]
  interval_cases i <;> rfl

theorem Packet.byte_mapReply (p : Packet) {i : Nat} (h : i < 32) :
    p.mapReply.byte i =
      (([(3, 4), (4, 16), (5, 1), (6, 64), (7, 7), (8, 128)] : List (Nat × Byte)).lookup i).getD (p.byte i) := by
  rw [Packet.mapReply, Packet.byte_withLength, Packet.byte_putCmd _ _ _ _ h]
  interval_cases i <;> rfl

end Sys2Proof

namespace Sys2Proof.Machine

theorem byte_statusReply (p : Packet) {i : Nat} (h : i < 32) :
    (Packet.statusReply p).byte i =
      (([(3, 0x01), (4, 0x00)] : List (Nat × Byte)).lookup i).getD (p.byte i) := by
  rw [Packet.statusReply, Packet.byte_withLength, Packet.byte_putCmd _ _ _ _ h]
  interval_cases i <;> rfl

/-- A command that builds a reply sends it from its first byte (R124). -/
theorem finishCommand_true_setPkt (s : State) (p : Packet) :
    (s.setPkt p).finishCommand true = { s with pkt := p, replyRequired := true, top := .send, txIdx := 0 } := rfl

/-- A command whose reply is not sent lets CORE poll again (R124). -/
theorem finishCommand_false_setPkt (s : State) (p : Packet) :
    (s.setPkt p).finishCommand false = { s with pkt := p, replyRequired := false, top := .poll } := rfl

/-- GETINFO (R113). -/
theorem exec_getinfo {s : State} (lead : Byte) (e : List Byte) (hd : s.top = .dispatch) :
    exec (.getinfo lead e) s =
      .next { s with pkt := s.pkt.infoReply, replyRequired := true, top := .send, txIdx := 0 } := by
  rw [← finishCommand_true_setPkt]
  exact dispatching_enabled hd

/-- GETMAPPING (R114). -/
theorem exec_getmapping {s : State} (lead : Byte) (e : List Byte) (hd : s.top = .dispatch) :
    exec (.getmapping lead e) s = .next { s with pkt := s.pkt.mapReply, replyRequired := false, top := .poll } := by
  rw [← finishCommand_false_setPkt]
  exact dispatching_enabled hd

/-- FLASHSTATUS (R120). -/
theorem exec_flashstatus {s : State} (lead : Byte) (e : List Byte) (hd : s.top = .dispatch) :
    exec (.flashstatus lead e) s =
      .next { s with pkt := Packet.statusReply s.pkt, replyRequired := true, top := .send, txIdx := 0 } := by
  rw [← finishCommand_true_setPkt]
  exact dispatching_enabled hd

/-- The bounds of LOADBUFFER (R116; decisions D6, D7). -/
theorem boundsOk_iff {len page address : Nat} :
    boundsOk len page address = true ↔ 7 ≤ len ∧ page < 10 ∧ address + (len - 7) ≤ 1024 := by
  simp [boundsOk, and_assoc]

/-- LOADBUFFER inside the bounds (R115). -/
theorem exec_loadbuffer {s : State} (lead : Byte) {len : Nat} {page address : Half} {data : List Byte}
    (hd : s.top = .dispatch) (hb : boundsOk len page.toNat address.toNat = true) (hdata : data.length = len - 7) :
    exec (.loadbuffer lead len page address data) s =
      .next { s with
        stage := s.stage.writeBytes stageDefault (pageSize * page.toNat + address.toNat) data
        replyRequired := false, top := .poll } := by
  obtain ⟨-, hp, ha⟩ := boundsOk_iff.1 hb
  have hw := (stageWrite_eq_some (s := s)).2 ⟨⟨hp, show address.toNat + data.length ≤ 1024 by omega⟩, rfl⟩
  refine (dispatching_enabled hd).trans ((if_pos hb).trans ?_)
  rw [hw]
  rfl

/-- LOADBUFFER outside the bounds (R116). -/
theorem exec_loadbuffer_outside {s : State} (lead : Byte) {len : Nat} {page address : Half} (data : List Byte)
    (hd : s.top = .dispatch) (hb : ¬ boundsOk len page.toNat address.toNat = true) :
    exec (.loadbuffer lead len page address data) s =
      .next { s with
        replyRequired := false, top := .poll
        env := { s.env with trace := s.env.trace ++ [.diag .boundsViolation] } } :=
  (dispatching_enabled hd).trans ((if_neg hb).trans (congrArg Host.Outcome.next (raise_cases s .boundsViolation)))

/-- WRITEFLASH at dispatch (R118). -/
theorem exec_writeflash_dispatch {s : State} (lead : Byte) (len : Nat) (b f n : Half) (e : List Byte)
    (hd : s.top = .dispatch) :
    exec (.writeflash lead len b f n e) s =
      .next { s with top := .flash, wfBpage := b, wfFpage := f, wfN := n, wfI := 0, wfPhase := .head } := by
  change execWriteflash b f n s = _
  simp only [execWriteflash, hd]

/-- WRITEFLASH at the top of its page loop (R118, R119). -/
theorem exec_writeflash_head {s : State} (lead : Byte) (len : Nat) (b f n : Half) (e : List Byte)
    (hf : s.top = .flash) (hp : s.wfPhase = .head) : exec (.writeflash lead len b f n e) s = .next s.pageLoop := by
  change execWriteflash b f n s = _
  simp only [execWriteflash, hf, hp, decide_true, whenEnabled_true]

/-- The page loop ends with the status reply (R118). -/
theorem pageLoop_done {s : State} (hn : s.wfN.toNat ≤ s.wfI.toNat) :
    s.pageLoop = { s with pkt := Packet.statusReply s.pkt, replyRequired := true, top := .send, txIdx := 0 } :=
  if_neg (Nat.not_lt.2 hn)

/-- The page loop halts the block at index 10 (R126). -/
theorem pageLoop_halt {s : State} (hn : s.wfI.toNat < s.wfN.toNat) (hi : 10 ≤ s.wfI.toNat) :
    s.pageLoop =
      { s with top := .fault, env := { s.env with trace := s.env.trace ++ [.diag .stageIndexFault] } } :=
  (if_pos hn).trans ((if_neg (Nat.not_lt.2 hi)).trans (raise_cases s .stageIndexFault))

end Sys2Proof.Machine

namespace Sys2Proof

open Machine

/-- Settles O23. -/
theorem getinfoBuildsItsReply : Obligations.GetinfoBuildsItsReply :=
  fun lead e s hd => ⟨_, exec_getinfo lead e hd,
    congrArg (fun p => { s with pkt := p, replyRequired := true, top := .send, txIdx := 0 }) s.pkt.infoReply_frame,
    fun _ hi => s.pkt.byte_infoReply hi⟩

/-- Settles O24. -/
theorem getmappingBuildsAndSendsNothing : Obligations.GetmappingBuildsAndSendsNothing :=
  fun lead e s hd => ⟨_, exec_getmapping lead e hd,
    congrArg (fun p => { s with pkt := p, replyRequired := false, top := .poll }) s.pkt.mapReply_frame,
    fun _ hi => s.pkt.byte_mapReply hi⟩

/-- Settles O25: inside a page the addresses of two pages' bytes are told apart. -/
theorem loadbufferStoresItsData : Obligations.LoadbufferStoresItsData := by
  intro lead len page address data s hd h7 hdata hpage haddr
  have hb : boundsOk len page.toNat address.toNat = true := boundsOk_iff.2 ⟨h7, Nat.lt_succ_of_le hpage, haddr⟩
  refine ⟨_, exec_loadbuffer lead hd hb hdata, rfl, fun pg a => ?_⟩
  simp only [State.stageByte, Memory.read_writeBytes]
  by_cases hin : pg = page.toNat ∧ address.toNat ≤ a ∧ a < address.toNat + data.length
  · obtain ⟨rfl, hlo, hhi⟩ := hin
    have hcell : pageSize * page.toNat + a - (pageSize * page.toNat + address.toNat) = a - address.toNat :=
      Nat.add_sub_add_left _ _ _
    have hbyte : page.toNat < nBufPages ∧ a < pageSize :=
      ⟨Nat.lt_succ_of_le hpage, show a < 1024 by omega⟩
    rw [if_pos hbyte, dif_pos (by omega), if_pos ⟨rfl, hlo, hhi⟩, List.getElem?_eq_getElem (by omega)]
    simp only [hcell]
  · rw [if_neg hin]
    split
    · rename_i hbyte
      obtain ⟨-, ha⟩ : pg < 10 ∧ a < 1024 := hbyte
      have hout : ¬ (1024 * page.toNat + address.toNat ≤ 1024 * pg + a ∧
          1024 * pg + a < 1024 * page.toNat + address.toNat + data.length) := by omega
      rw [dif_neg hout]
    · rfl

/-- Settles O26. -/
theorem loadbufferOutOfBoundsWritesNothing : Obligations.LoadbufferOutOfBoundsWritesNothing := by
  intro lead len page address data s hd hout
  refine exec_loadbuffer_outside lead data hd ?_
  rw [boundsOk_iff]
  omega

/-- Settles O28. -/
theorem flashstatusReportsSuccess : Obligations.FlashstatusReportsSuccess :=
  fun lead e s hd => ⟨_, exec_flashstatus lead e hd, rfl, fun _ hi => byte_statusReply s.pkt hi⟩

/-- Settles O29. -/
theorem writeflashStarts : Obligations.WriteflashStarts :=
  fun lead len b f n e _ hd => exec_writeflash_dispatch lead len b f n e hd

/-- Settles O30. -/
theorem writeflashEndsWithTheStatusReply : Obligations.WriteflashEndsWithTheStatusReply :=
  fun lead len b f n e s hf hp hn =>
    ⟨_, (exec_writeflash_head lead len b f n e hf hp).trans (congrArg _ (pageLoop_done hn)), rfl,
      fun _ hi => byte_statusReply s.pkt hi⟩

/-- Settles O31. -/
theorem tooManyPagesHaltTheBlock : Obligations.TooManyPagesHaltTheBlock :=
  fun lead len b f n e _ hf hp hn hi =>
    (exec_writeflash_head lead len b f n e hf hp).trans (congrArg _ (pageLoop_halt hn hi))

/-- Settles O32: only the three replies are built in the packet register, and each starts at its fourth byte. -/
theorem replyEchoesTypeAndLead : Obligations.ReplyEchoesTypeAndLead := by
  intro s t htop h
  have same : ∀ {u : State}, u.pkt = s.pkt → u.pkt.type = s.pkt.type ∧ ∀ i, i < 3 → u.pkt.byte i = s.pkt.byte i :=
    fun hu => by rw [hu]; exact ⟨rfl, fun _ _ => rfl⟩
  rcases htop with hd | hf
  · rcases dispatch_cases hd h with ⟨p, hty, hlead, ⟨-, -, rfl⟩ | ⟨-, -, rfl⟩ | ⟨-, -, rfl⟩⟩ |
      ⟨_, _, _, _, _, -, ⟨u, hu, rfl⟩ | rfl⟩ | ⟨_, _, _, _, _, _, -, rfl⟩ | rfl
    · exact ⟨hty, hlead⟩
    · exact ⟨hty, hlead⟩
    · exact ⟨hty, hlead⟩
    · obtain ⟨-, rfl⟩ := stageWrite_eq_some.1 hu
      exact same rfl
    · exact same rfl
    · exact same rfl
    · exact same rfl
  · rcases flash_cases hf h with ht | ⟨-, -, -, rfl⟩ | ⟨-, -, rfl⟩
    · rw [ht]
      exact ⟨rfl, fun _ _ => rfl⟩
    · exact same rfl
    · obtain ⟨hty, -, hlead⟩ := statusReply_eq s.pkt
      exact ⟨hty, hlead⟩

/-- Settles O33: by the value of `top`; only Dispatch and Flash lead to Send. -/
theorem onlyThreeCommandsReply : Obligations.OnlyThreeCommandsReply := by
  intro s t h ht hs
  cases htop : s.top
  case send => exact absurd htop hs
  case app => rw [coreStep_halted (.inl htop)] at h; cases h; exact absurd ht hs
  case fault => rw [coreStep_halted (.inr htop)] at h; cases h; exact absurd ht hs
  case boot =>
    obtain ⟨_, _, top, htop', hboot⟩ := coreStep_boot htop
    rw [← next_inj (hboot.symm.trans h)] at ht
    exact absurd ht (by rcases htop' with rfl | rfl <;> simp)
  case poll =>
    rcases poll_cases htop h with ⟨-, rfl⟩ | ⟨c, rest, -, -, rfl⟩
    · exact absurd ht hs
    · rcases afterByte_top (s := { s with rxq := rest }) c htop with h' | h' <;> rw [h'] at ht <;> cases ht
  case dispatch =>
    rcases dispatch_cases htop h with ⟨p, -, -, ⟨⟨lead, e, hi⟩, -, rfl⟩ | ⟨⟨lead, e, hi⟩, -, rfl⟩ | ⟨-, -, rfl⟩⟩ |
      ⟨_, _, _, _, _, -, ⟨u, -, rfl⟩ | rfl⟩ | ⟨_, _, _, _, _, _, -, rfl⟩ | rfl
    · exact .inl ⟨rfl, lead, e, .inl hi⟩
    · exact .inl ⟨rfl, lead, e, .inr hi⟩
    all_goals cases ht
  case flash =>
    rcases flash_cases htop h with ht' | ⟨-, -, -, rfl⟩ | ⟨hp, hn, -⟩
    · rw [ht'] at ht; exact absurd ht hs
    · cases ht
    · exact .inr ⟨rfl, hp, hn⟩

end Sys2Proof

/-! The flash sequencer, operation by operation (43_flash_sequencer.md R140 to R147, R151): the controller's answer to
one operation, the step of each phase, and the sector map. -/

namespace Sys2Proof.Machine

/-! One controller operation. -/

/-- The environment after one controller operation: it is recorded, and the array answers (R140, R151). -/
def Env.perform (e : Env) (op : FcOp) : Env :=
  match op with
  | .isBusy _ => { e with trace := e.trace ++ [.fc op] }
  | .key1 => { e with trace := e.trace ++ [.fc op] }
  | .key2 => { e with trace := e.trace ++ [.fc op] }
  | .configure c => Env.applyConfig { e with trace := e.trace ++ [.fc op] } c
  | .writeWord a v => Env.applyWrite { e with trace := e.trace ++ [.fc op] } a.toNat v

/-- An operation changes the record, the last configuration, the array and the count of free values alone. -/
theorem Env.perform_frame (e : Env) (op : FcOp) :
    e.perform op =
      { e with
        trace := e.trace ++ [.fc op], fcConfig := (e.perform op).fcConfig, flash := (e.perform op).flash
        freeCount := (e.perform op).freeCount } := by
  cases op
  case writeWord a v =>
    rw [perform, applyWrite_eq]
  all_goals rfl

@[simp] theorem Env.perform_trace (e : Env) (op : FcOp) : (e.perform op).trace = e.trace ++ [.fc op] := by
  rw [perform_frame]

@[simp] theorem Env.perform_turns (e : Env) (op : FcOp) : (e.perform op).turns = e.turns := by
  rw [perform_frame]

@[simp] theorem Env.perform_fcBusy (e : Env) (op : FcOp) : (e.perform op).fcBusy = e.fcBusy := by
  rw [perform_frame]

/-- An operation keeps the canonical form of the array. -/
theorem Env.perform_wf {e : Env} (op : FcOp) (h : Memory.wf flashDefault e.flash = true) :
    Memory.wf flashDefault (e.perform op).flash = true := by
  cases op
  case configure c => exact applyConfig_wf (e := { e with trace := _ }) c h
  case writeWord a v => exact applyWrite_wf (e := { e with trace := _ }) a.toNat v h
  all_goals exact h

/-- A poll that goes on to a fixed phase. -/
theorem pollBusy_setPhase {s : State} {w : WfPhase} (h : s.wfPhase = w) (p : WfPhase) :
    s.pollBusy (fun u => u.setPhase p) =
      { s with
        wfPhase := if s.env.fcBusy then w else p, env := s.env.perform (.isBusy s.env.fcBusy) } := by
  subst h
  cases hb : s.env.fcBusy
  · rw [pollBusy_idle hb]; rfl
  · rw [pollBusy_busy hb]; rfl

/-- A poll that goes on to the next word, or to the next page. -/
theorem pollBusy_afterWord {s : State} (h : s.wfPhase = .pWaitW) :
    s.pollBusy State.afterWord =
      { s with
        wfPhase := if s.env.fcBusy then .pWaitW else if s.wfW = 255 then .head else .pWord
        wfW := if s.env.fcBusy ∨ s.wfW = 255 then s.wfW else s.wfW + 1
        wfI := if s.env.fcBusy = false ∧ s.wfW = 255 then s.wfI + 1 else s.wfI
        env := s.env.perform (.isBusy s.env.fcBusy) } := by
  cases hb : s.env.fcBusy
  · rw [pollBusy_idle hb]
    rcases afterWord_cases (s.emit (.fc (.isBusy false))) with ⟨hw, ha⟩ | ⟨hw, ha⟩ <;> rw [State.emit_wfW] at hw
    · have hkeep : false = true ∨ s.wfW = 255 := .inr hw
      have hlast : false = false ∧ s.wfW = 255 := ⟨rfl, hw⟩
      rw [ha, if_pos hw, if_pos hkeep, if_pos hlast]
      rfl
    · have hkeep : ¬ (false = true ∨ s.wfW = 255) := fun h => h.elim nofun hw
      have hlast : ¬ (false = false ∧ s.wfW = 255) := fun h => hw h.2
      rw [ha, if_neg hw, if_neg hkeep, if_neg hlast]
      rfl
  · rw [pollBusy_busy hb, ← h]; rfl

/-- A word inside the staging store. -/
theorem stageWord_inside (s : State) {page w : Nat} (hp : page < nBufPages) (hw : w < 256) :
    s.stageWord page w = some (s.stage.readWord stageDefault (pageSize * page + 4 * w)) :=
  stageWord_eq_some.2 ⟨⟨hp, show 4 * w + 3 < 1024 by omega⟩, rfl⟩

/-! The phases of an erase (R143). -/

theorem exec_erase_eWait1 {s : State} (sec : BitVec 4) (h : s.top = .flash) (hp : s.wfPhase = .eWait1) :
    exec (.erase sec) s =
      .next { s with
        wfPhase := if s.env.fcBusy then .eWait1 else .eKey1, env := s.env.perform (.isBusy s.env.fcBusy) } := by
  rw [← pollBusy_setPhase hp]
  change execErase sec s = _
  simp only [execErase, h, hp, decide_true, whenEnabled_true]

theorem exec_erase_eKey1 {s : State} (sec : BitVec 4) (h : s.top = .flash) (hp : s.wfPhase = .eKey1) :
    exec (.erase sec) s = .next { s with wfPhase := .eKey2, env := s.env.perform .key1 } := by
  have hstep : execErase sec s = .next ((s.emit (.fc .key1)).setPhase .eKey2) := by
    simp only [execErase, h, hp, decide_true, whenEnabled_true]
  exact hstep

theorem exec_erase_eKey2 {s : State} (sec : BitVec 4) (h : s.top = .flash) (hp : s.wfPhase = .eKey2) :
    exec (.erase sec) s = .next { s with wfPhase := .eCfg, env := s.env.perform .key2 } := by
  have hstep : execErase sec s = .next ((s.emit (.fc .key2)).setPhase .eCfg) := by
    simp only [execErase, h, hp, decide_true, whenEnabled_true]
  exact hstep

theorem exec_erase_eCfg {s : State} (sec : BitVec 4) (h : s.top = .flash) (hp : s.wfPhase = .eCfg) :
    exec (.erase sec) s =
      .next { s with wfPhase := .eWait2, env := s.env.perform (.configure (eraseCfg sec)) } := by
  have hstep : execErase sec s = .next ((s.configure (eraseCfg sec)).setPhase .eWait2) := by
    simp only [execErase, h, hp, decide_true, whenEnabled_true]
  exact hstep

theorem exec_erase_eWait2 {s : State} (sec : BitVec 4) (h : s.top = .flash) (hp : s.wfPhase = .eWait2) :
    exec (.erase sec) s =
      .next { s with
        wfPhase := if s.env.fcBusy then .eWait2 else .pWait1, env := s.env.perform (.isBusy s.env.fcBusy) } := by
  rw [← pollBusy_setPhase hp]
  change execErase sec s = _
  simp only [execErase, h, hp, decide_true, whenEnabled_true]

/-! The phases of a program (R144). -/

theorem exec_program_pWait1 {s : State} (addr : Word) (page : BitVec 4) (h : s.top = .flash)
    (hp : s.wfPhase = .pWait1) :
    exec (.program addr page) s =
      .next { s with
        wfPhase := if s.env.fcBusy then .pWait1 else .pKey1, env := s.env.perform (.isBusy s.env.fcBusy) } := by
  rw [← pollBusy_setPhase hp]
  change execProgram addr page s = _
  simp only [execProgram, h, hp, decide_true, whenEnabled_true]

theorem exec_program_pKey1 {s : State} (addr : Word) (page : BitVec 4) (h : s.top = .flash)
    (hp : s.wfPhase = .pKey1) :
    exec (.program addr page) s = .next { s with wfPhase := .pKey2, env := s.env.perform .key1 } := by
  have hstep : execProgram addr page s = .next ((s.emit (.fc .key1)).setPhase .pKey2) := by
    simp only [execProgram, h, hp, decide_true, whenEnabled_true]
  exact hstep

theorem exec_program_pKey2 {s : State} (addr : Word) (page : BitVec 4) (h : s.top = .flash)
    (hp : s.wfPhase = .pKey2) :
    exec (.program addr page) s = .next { s with wfPhase := .pCfg, env := s.env.perform .key2 } := by
  have hstep : execProgram addr page s = .next ((s.emit (.fc .key2)).setPhase .pCfg) := by
    simp only [execProgram, h, hp, decide_true, whenEnabled_true]
  exact hstep

theorem exec_program_pCfg {s : State} (addr : Word) (page : BitVec 4) (h : s.top = .flash)
    (hp : s.wfPhase = .pCfg) :
    exec (.program addr page) s =
      .next { s with wfPhase := .pWord, wfW := 0, env := s.env.perform (.configure programCfg) } := by
  have hstep : execProgram addr page s = .next { s.configure programCfg with wfW := 0, wfPhase := .pWord } := by
    simp only [execProgram, h, hp, decide_true, whenEnabled_true]
  exact hstep

theorem exec_program_pWord {s : State} (addr : Word) {page : BitVec 4} (h : s.top = .flash) (hp : s.wfPhase = .pWord)
    {v : Word} (hv : s.stageWord page.toNat s.wfW.toNat = some v) :
    exec (.program addr page) s =
      .next { s with
        wfPhase := .pWaitW, env := s.env.perform (.writeWord (addr + BitVec.ofNat 32 (4 * s.wfW.toNat)) v) } := by
  have hstep : execProgram addr page s =
      .next ((s.writeWord (addr + BitVec.ofNat 32 (4 * s.wfW.toNat)) v).setPhase .pWaitW) := by
    simp only [execProgram, h, hp, decide_true, whenEnabled_true, hv]
  exact hstep

theorem exec_program_pWaitW {s : State} (addr : Word) (page : BitVec 4) (h : s.top = .flash)
    (hp : s.wfPhase = .pWaitW) :
    exec (.program addr page) s =
      .next { s with
        wfPhase := if s.env.fcBusy then .pWaitW else if s.wfW = 255 then .head else .pWord
        wfW := if s.env.fcBusy ∨ s.wfW = 255 then s.wfW else s.wfW + 1
        wfI := if s.env.fcBusy = false ∧ s.wfW = 255 then s.wfI + 1 else s.wfI
        env := s.env.perform (.isBusy s.env.fcBusy) } := by
  rw [← pollBusy_afterWord hp]
  change execProgram addr page s = _
  simp only [execProgram, h, hp, decide_true, whenEnabled_true]

/-- The sector lookup at the top of the page loop (R142; 42_commands.md R119). -/
theorem exec_sectorLookup {s : State} (addr : Word) (h : s.top = .flash) (hp : s.wfPhase = .head) :
    exec (.sectorLookup addr) s = .next (s.beginPage addr) := by
  change execSectorLookup addr s = _
  simp only [execSectorLookup, h, hp, decide_true, Bool.and_true, whenEnabled_true]

/-- A step of CORE inside an erase or a program. -/
theorem coreStep_erase {s : State} (h : s.top = .flash)
    (hp : s.wfPhase = .eWait1 ∨ s.wfPhase = .eKey1 ∨ s.wfPhase = .eKey2 ∨ s.wfPhase = .eCfg ∨ s.wfPhase = .eWait2) :
    coreStep s = exec (.erase s.wfS) s :=
  coreStep_of_not_poll (by simp [h]) (fetch_erase h hp)

theorem coreStep_program {s : State} (h : s.top = .flash)
    (hp : s.wfPhase = .pWait1 ∨ s.wfPhase = .pKey1 ∨ s.wfPhase = .pKey2 ∨ s.wfPhase = .pCfg ∨ s.wfPhase = .pWord ∨
      s.wfPhase = .pWaitW) :
    coreStep s = exec (.program s.wfAddr s.wfI) s :=
  coreStep_of_not_poll (by simp [h]) (fetch_program h hp)

/-- A step of CORE at the top of the page loop, with a page to come or without one. -/
theorem coreStep_page {s : State} (h : s.top = .flash) (hp : s.wfPhase = .head) (hn : s.wfI.toNat < s.wfN.toNat)
    (hi : s.wfI.toNat < nBufPages) :
    coreStep s = .next (s.beginPage (flashPageAddr (s.wfFpage.toNat + s.wfI.toNat))) :=
  (coreStep_of_not_poll (by simp [h]) (fetch_page h hp hn hi)).trans (exec_sectorLookup _ h hp)

theorem coreStep_loop_end {s : State} (h : s.top = .flash) (hp : s.wfPhase = .head)
    (hn : ¬ (s.wfI.toNat < s.wfN.toNat ∧ s.wfI.toNat < nBufPages)) : coreStep s = .next s.pageLoop := by
  obtain ⟨lead, len, extra, hfetch⟩ := fetch_loop_end h hp hn
  exact (coreStep_of_not_poll (by simp [h]) hfetch).trans (exec_writeflash_head _ _ _ _ _ _ h hp)

/-- A wait with a busy controller stays where it is (R147). -/
theorem coreStep_busy {s : State} (h : s.top = .flash) (hb : s.env.fcBusy = true)
    (hp : s.wfPhase = .eWait1 ∨ s.wfPhase = .eWait2 ∨ s.wfPhase = .pWait1 ∨ s.wfPhase = .pWaitW) :
    coreStep s = .next { s with env := s.env.perform (.isBusy true) } := by
  rcases hp with hp | hp | hp | hp
  · rw [coreStep_erase h (by simp [hp]), exec_erase_eWait1 _ h hp]
    simp only [hb, if_true, ← hp]
  · rw [coreStep_erase h (by simp [hp]), exec_erase_eWait2 _ h hp]
    simp only [hb, if_true, ← hp]
  · rw [coreStep_program h (by simp [hp]), exec_program_pWait1 _ _ h hp]
    simp only [hb, if_true, ← hp]
  · rw [coreStep_program h (by simp [hp]), exec_program_pWaitW _ _ h hp]
    simp only [hb, if_true, true_or, Bool.true_eq_false, false_and, if_false, ← hp]

/-! The sector map (20_memory.md R46). -/

theorem sectorMap_nodup : sectorMap.Nodup := by decide

/-- The lookup is the position in the sector map (R142). -/
theorem sectorIndex_eq_some_iff {addr : Word} {i : Nat} : sectorIndex addr = some i ↔ sectorMap[i]? = some addr := by
  rw [sectorIndex, List.findIdx?_eq_some_iff_getElem, List.getElem?_eq_some_iff]
  constructor
  · rintro ⟨hi, haddr, -⟩
    exact ⟨hi, eq_of_beq haddr⟩
  · rintro ⟨hi, rfl⟩
    refine ⟨hi, beq_self_eq_true _, fun j hj heq => ?_⟩
    exact (Nat.ne_of_lt hj) ((sectorMap_nodup.getElem_inj_iff).1 (eq_of_beq heq))

/-- The flash pages that start the sectors. -/
def sectorPages : List Nat := [0, 16, 32, 48, 64, 128, 256, 384, 512, 640, 768, 896]

theorem sectorMap_eq_map : sectorMap = sectorPages.map flashPageAddr := by decide

theorem flashPageAddr_toNat {page : Nat} (h : page < 65546) : (flashPageAddr page).toNat = 0x08000000 + 1024 * page := by
  rw [flashPageAddr, BitVec.toNat_ofNat]
  exact Nat.mod_eq_of_lt (show 0x08000000 + 1024 * page < 2 ^ 32 by omega)

theorem flashPageAddr_inj {p q : Nat} (hp : p < 65546) (hq : q < 65546) (h : flashPageAddr p = flashPageAddr q) :
    p = q := by
  have h := congrArg BitVec.toNat h
  rw [flashPageAddr_toNat hp, flashPageAddr_toNat hq] at h
  omega

theorem lt_of_mem_sectorPages {p : Nat} (h : p ∈ sectorPages) : p < 1024 := by
  revert p
  decide

/-- Of the pages that can be formed exactly those of the list start a sector. -/
theorem sectorIndex_flashPageAddr_iff {page i : Nat} (h : page < 65546) :
    sectorIndex (flashPageAddr page) = some i ↔ sectorPages[i]? = some page := by
  rw [sectorIndex_eq_some_iff, sectorMap_eq_map, List.getElem?_map, Option.map_eq_some_iff]
  constructor
  · rintro ⟨p, hp, heq⟩
    rwa [← flashPageAddr_inj ((lt_of_mem_sectorPages (List.mem_of_getElem? hp)).trans (by decide)) h heq]
  · exact fun hp => ⟨page, hp, rfl⟩

/-- The end of a sector, as the map gives it (R151 (a)). -/
theorem sectorEnd_eq {i : Nat} (h : i < 12) :
    sectorEnd i = if i = 11 then 0x08100000 else (sectorMap.getD (i + 1) 0).toNat := by
  revert i
  decide

/-- Where R151 (b) gives a word write its result. -/
theorem programs_iff {e : Env} {a : Nat} :
    e.programs a = true ↔
      e.fcConfig = some programCfg ∧ 0x08000000 ≤ a ∧ a + 3 ≤ 0x080FFFFF ∧
        e.flash.readWord flashDefault a = 0xFFFFFFFF := by
  have hlast : a + 3 < flashEnd ↔ a + 3 ≤ 0x080FFFFF := Nat.lt_succ_iff
  simp [Env.programs, inDevice, hlast, and_assoc]

/-- A word write changes no byte outside its word. -/
theorem read_applyWrite_outside (e : Env) (a : Nat) (v : Word) {x : Nat} (h : x < a ∨ a + 4 ≤ x) :
    (e.applyWrite a v).flash.read flashDefault x = e.flash.read flashDefault x := by
  unfold Env.applyWrite
  split
  · exact Memory.read_writeWord_outside _ _ h
  · exact Memory.read_writeWord_outside _ _ h

/-- The erase of a sector sets its bytes and leaves every other one. -/
theorem read_applyConfig_eraseCfg (e : Env) (sec : BitVec 4) (a : Nat) :
    (e.applyConfig (eraseCfg sec)).flash.read flashDefault a =
      if sec.toNat < 12 ∧ sectorStart sec.toNat ≤ a ∧ a < sectorEnd sec.toNat then flashDefault
      else e.flash.read flashDefault a := by
  rw [applyConfig_eraseCfg_flash]
  by_cases h : sec.toNat < 12
  · rw [if_pos h, Memory.read_clear]
    simp only [h, true_and]
  · rw [if_neg h]
    simp only [h, false_and, if_false]

end Sys2Proof.Machine

namespace Sys2Proof

open Machine

/-- Settles O34. -/
theorem sectorLookupIsExactMatch : Obligations.SectorLookupIsExactMatch :=
  ⟨fun _ _ => sectorIndex_eq_some_iff, fun _ _ h => sectorIndex_flashPageAddr_iff h⟩

/-- Settles O35. -/
theorem sectorLookupChoosesEraseOrProgram : Obligations.SectorLookupChoosesEraseOrProgram := by
  intro addr s h hp
  rw [exec_sectorLookup addr h hp]
  refine ⟨fun i hi => ?_, fun hnone => ?_⟩
  · rw [State.beginPage, hi]
  · rw [State.beginPage, hnone]

/-- Settles O36. -/
theorem eraseOperationByOperation : Obligations.EraseOperationByOperation :=
  fun sec _ h => ⟨exec_erase_eWait1 sec h, exec_erase_eKey1 sec h, exec_erase_eKey2 sec h, exec_erase_eCfg sec h,
    exec_erase_eWait2 sec h⟩

/-- Settles O37: the word written is the little-endian word of the four staging bytes, and PROGRAM_CFG erases nothing. -/
theorem programOperationByOperation : Obligations.ProgramOperationByOperation := by
  intro addr page s h
  refine ⟨exec_program_pWait1 addr page h, exec_program_pKey1 addr page h, exec_program_pKey2 addr page h,
    fun hp => ?_, fun hp hpage => ?_, exec_program_pWaitW addr page h⟩
  · rw [exec_program_pCfg addr page h hp, Env.perform, applyConfig_programCfg]
    rfl
  · have hw := s.wfW.isLt
    have hpage : page.toNat < nBufPages := Nat.lt_succ_of_le hpage
    have byte {k : Nat} (hk : k < 4) := stageByte_eq_some.2
      ⟨⟨hpage, show 4 * s.wfW.toNat + k < 1024 by omega⟩, rfl (a := s.stage.read stageDefault (_ + (_ + k)))⟩
    exact ⟨_, _, _, _, byte (k := 0) (by decide), byte (by decide), byte (by decide), byte (by decide),
      exec_program_pWord addr h hp (stageWord_inside s hpage hw)⟩

/-- Settles O38: each phase records its one operation. -/
theorem sequencerStepMakesOneOperation : Obligations.SequencerStepMakesOneOperation := by
  intro sec addr page s h
  have made (op : FcOp) : (s.env.perform op).trace = s.env.trace ++ [.fc op] ∧
      (s.env.perform op).turns = s.env.turns ∧ (s.env.perform op).fcBusy = s.env.fcBusy := by simp
  constructor
  · rintro (hp | hp | hp | hp | hp)
    · exact ⟨_, _, exec_erase_eWait1 sec h hp, rfl, made _⟩
    · exact ⟨_, _, exec_erase_eKey1 sec h hp, rfl, made _⟩
    · exact ⟨_, _, exec_erase_eKey2 sec h hp, rfl, made _⟩
    · exact ⟨_, _, exec_erase_eCfg sec h hp, rfl, made _⟩
    · exact ⟨_, _, exec_erase_eWait2 sec h hp, rfl, made _⟩
  · rintro (hp | hp | hp | hp | hp | hp) hpage
    · exact ⟨_, _, exec_program_pWait1 addr page h hp, rfl, made _⟩
    · exact ⟨_, _, exec_program_pKey1 addr page h hp, rfl, made _⟩
    · exact ⟨_, _, exec_program_pKey2 addr page h hp, rfl, made _⟩
    · exact ⟨_, _, exec_program_pCfg addr page h hp, rfl, made _⟩
    · have hv := stageWord_inside s (Nat.lt_succ_of_le hpage) s.wfW.isLt
      exact ⟨_, _, exec_program_pWord addr h hp hv, rfl, made _⟩
    · exact ⟨_, _, exec_program_pWaitW addr page h hp, rfl, made _⟩

/-- Settles O39: by induction on the number of steps, each of which answers "busy" and stays. -/
theorem busyControllerHangsTheBlock : Obligations.BusyControllerHangsTheBlock := by
  intro k
  induction k with
  | zero =>
    intro s _ _ _ _
    rw [List.replicate_zero, List.append_nil]
    rfl
  | succ k ih =>
    intro s h hb ht hp
    rw [run_succ_of_step ((step_of_no_turns ht).trans (coreStep_busy h hb hp)),
      ih { s with env := s.env.perform (.isBusy true) } h hb ht hp, List.replicate_succ, List.append_cons]
    rfl

/-- Settles O42. -/
theorem eraseSetsTheSectorToErased : Obligations.EraseSetsTheSectorToErased := by
  intro e sec a h
  rw [read_applyConfig_eraseCfg, sectorEnd_eq h]
  simp only [h, true_and]
  rfl

/-- Settles O43: by whether R151 (b) gives the write its result. -/
theorem wordWriteChangesOnlyItsWord : Obligations.WordWriteChangesOnlyItsWord := by
  refine fun e a v => ⟨fun h => ?_, fun h => ?_, fun x hx => read_applyWrite_outside e a v hx⟩
  · rw [Env.applyWrite, if_pos (programs_iff.2 h)]
    exact ⟨Memory.readWord_writeWord _ _ _, rfl⟩
  · rw [Env.applyWrite, if_neg (fun hp => h (programs_iff.1 hp))]
    exact ⟨Memory.readWord_writeWord _ _ _, rfl⟩

end Sys2Proof

/-! The transmit path (41_framing_tx.md R101 to R103): one offered byte, and the whole frame of a reply. -/

namespace Sys2Proof.Machine

/-- The state whose packet register is offered to the sink: before the first byte its checksum is computed (R101). -/
def State.offered (s : State) : State := if s.txIdx = 0 then s.finalize else s

theorem offered_first {s : State} (h : s.txIdx = 0) : s.offered = s.finalize := if_pos h

theorem offered_later {s : State} (h : s.txIdx ≠ 0) : s.offered = s := if_neg h

/-- The offer changes the checksum and its accumulators alone. -/
theorem offered_frame (s : State) :
    s.offered =
      { s with
        pkt := { s.pkt with cksum := s.offered.pkt.cksum }, ckA := s.offered.ckA, ckB := s.offered.ckB } := by
  unfold State.offered
  split <;> rfl

/-- The outbound frame of the offered packet has six bytes besides the payload. -/
theorem wire_offered (s : State) :
    Packet.wire s.offered.pkt =
      [sync1, sync2, s.pkt.type, s.pkt.length] ++ s.pkt.valid ++
        [lo8 s.offered.pkt.cksum, hi8 s.offered.pkt.cksum] := by
  rw [offered_frame]
  rfl

theorem wire_length {p : Packet} (h : p.length.toNat ≤ 32) : (Packet.wire p).length = p.length.toNat + 6 := by
  simp only [Packet.wire, List.length_append, List.length_cons, List.length_nil, Packet.valid_length,
    Nat.min_eq_left h]
  omega

theorem wire_offered_length {s : State} (h : s.pkt.length.toNat ≤ 32) :
    (Packet.wire s.offered.pkt).length = s.pkt.length.toNat + 6 := by
  rw [offered_frame]
  exact wire_length h

/-- SEND inside the frame offers the next byte (R101, R102). -/
theorem exec_send {s : State} (h : s.top = .send) (hl : s.pkt.length.toNat ≤ maxPayload) {c : Byte}
    (hc : (Packet.wire s.offered.pkt)[s.txIdx.toNat]? = some c) :
    exec .send s =
      .next
        (if s.env.sinkReady then
           { s.offered with
             top := if s.txIdx.toNat = s.pkt.length.toNat + 5 then .poll else .send
             txIdx := if s.txIdx.toNat = s.pkt.length.toNat + 5 then s.txIdx else s.txIdx + 1
             env := { s.env with trace := s.env.trace ++ [.sinkPut c] } }
         else s.offered) := by
  have henv : s.offered.env = s.env := by rw [offered_frame]
  have htop : s.offered.top = .send := by rw [offered_frame]; exact h
  have hidx : s.offered.txIdx = s.txIdx := by rw [offered_frame]
  have hsend : execSend s =
      .next
        (if s.env.sinkReady then
           if s.txIdx.toNat = s.pkt.length.toNat + 5 then (s.offered.emit (.sinkPut c)).setTop .poll
           else { s.offered.emit (.sinkPut c) with txIdx := s.txIdx + 1 }
         else s.offered) := by
    change whenEnabled (decide (s.top = .send)) (if s.pkt.length.toNat ≤ maxPayload then
      match (Packet.wire s.offered.pkt)[s.txIdx.toNat]? with | none => _ | some _ => _ else _) = _
    rw [decide_eq_true h, whenEnabled_true, if_pos hl, hc]
    rfl
  refine Eq.trans hsend (congrArg Host.Outcome.next ?_)
  split
  · split
    · rw [← hidx, ← henv]; rfl
    · rw [← htop, ← henv]; rfl
  · rfl

theorem step_send {s : State} (h : s.top = .send) (hl : s.pkt.length.toNat ≤ 32) (hs : s.env.sinkReady = true)
    (ht : s.env.turns = []) {c : Byte} (hc : (Packet.wire s.offered.pkt)[s.txIdx.toNat]? = some c) :
    step s =
      .next { s.offered with
        top := if s.txIdx.toNat = s.pkt.length.toNat + 5 then .poll else .send
        txIdx := if s.txIdx.toNat = s.pkt.length.toNat + 5 then s.txIdx else s.txIdx + 1
        env := { s.env with trace := s.env.trace ++ [.sinkPut c] } } := by
  rw [step_of_no_turns ht, coreStep_of_not_poll (by simp [h]) (fetch_send h), exec_send h hl hc, if_pos hs]

theorem step_send_later {s : State} (h : s.top = .send) (hl : s.pkt.length.toNat ≤ 32)
    (hs : s.env.sinkReady = true) (ht : s.env.turns = []) (h0 : s.txIdx ≠ 0)
    (hin : s.txIdx.toNat < (Packet.wire s.pkt).length) :
    step s =
      .next { s with
        top := if s.txIdx.toNat = s.pkt.length.toNat + 5 then .poll else .send
        txIdx := if s.txIdx.toNat = s.pkt.length.toNat + 5 then s.txIdx else s.txIdx + 1
        env := { s.env with trace := s.env.trace ++ [.sinkPut (Packet.wire s.pkt)[s.txIdx.toNat]] } } := by
  have hc : (Packet.wire s.offered.pkt)[s.txIdx.toNat]? = some (Packet.wire s.pkt)[s.txIdx.toNat] := by
    rw [offered_later h0]
    exact List.getElem?_eq_getElem hin
  have hstep := step_send h hl hs ht hc
  rwa [offered_later h0] at hstep

/-- After the first byte the rest of the frame goes out byte by byte, and CORE polls again. -/
theorem run_send_rest {m : Nat} {s : State} (h : s.top = .send) (hl : s.pkt.length.toNat ≤ 32)
    (hs : s.env.sinkReady = true) (ht : s.env.turns = []) (h0 : s.txIdx ≠ 0)
    (hm : s.txIdx.toNat + (m + 1) = s.pkt.length.toNat + 6) :
    ∃ n, Sys2Proof.core.run (m + 1) s =
      .next { s with
        top := .poll, txIdx := n
        env := { s.env with
          trace := s.env.trace ++ ((Packet.wire s.pkt).drop s.txIdx.toNat).map Event.sinkPut } } := by
  have hwire := wire_length hl
  have hin : s.txIdx.toNat < (Packet.wire s.pkt).length := by omega
  induction m generalizing s with
  | zero =>
    have hlast : s.txIdx.toNat = s.pkt.length.toNat + 5 := by omega
    have hstep := step_send_later h hl hs ht h0 hin
    rw [if_pos hlast, if_pos hlast] at hstep
    refine ⟨s.txIdx, ?_⟩
    rw [run_succ_of_step hstep, List.drop_eq_getElem_cons hin, List.drop_eq_nil_of_le (by omega)]
    rfl
  | succ m ih =>
    have hmore : s.txIdx.toNat ≠ s.pkt.length.toNat + 5 := by omega
    have hstep := step_send_later h hl hs ht h0 hin
    rw [if_neg hmore, if_neg hmore] at hstep
    have hidx : (s.txIdx + 1).toNat = s.txIdx.toNat + 1 := by
      rw [BitVec.toNat_add]
      exact Nat.mod_eq_of_lt (show s.txIdx.toNat + 1 < 64 by omega)
    have hpos : s.txIdx + 1 ≠ 0 := fun hz => by
      rw [hz] at hidx
      exact absurd hidx (by simp)
    obtain ⟨n, hn⟩ := ih (s := { s with
      top := .send, txIdx := s.txIdx + 1
      env := { s.env with trace := s.env.trace ++ [.sinkPut (Packet.wire s.pkt)[s.txIdx.toNat]] } })
      rfl hl hs ht hpos (by simp only [hidx]; omega) hwire (by simp only [hidx]; omega)
    refine ⟨n, ?_⟩
    rw [run_succ_of_step hstep, hn, List.drop_eq_getElem_cons hin, List.map_cons]
    simp only [hidx, List.append_assoc, List.singleton_append]

/-- The frame of a reply is the encoding of its type and its valid payload. -/
theorem wire_finalize {s : State} (hl : s.pkt.length.toNat ≤ 32) :
    Packet.wire s.finalize.pkt = encode (.frame s.pkt.type s.pkt.valid) := by
  have hlen : BitVec.ofNat 8 s.pkt.valid.length = s.pkt.length := by
    rw [Packet.valid_length, Nat.min_eq_left hl, BitVec.ofNat_toNat, BitVec.setWidth_eq]
  rw [encode, frameBytes, hlen]
  rfl

end Sys2Proof.Machine

namespace Sys2Proof

open Machine

/-- Settles O47: by whether the sink accepts, and by whether the byte is the first. -/
theorem sendPutsTheNextByte : Obligations.SendPutsTheNextByte := by
  intro s h hl hi
  have hin : s.txIdx.toNat < (Packet.wire s.offered.pkt).length := by
    rw [wire_offered_length hl]
    omega
  have hc := List.getElem?_eq_getElem hin
  have hfirst (h0 : s.txIdx = 0) : s.offered.pkt.cksum = cksum16 s.pkt.type s.pkt.length s.pkt.valid ∧
      s.offered.ckA = (ckAcc s.pkt.type s.pkt.length s.pkt.valid).a ∧
      s.offered.ckB = (ckAcc s.pkt.type s.pkt.length s.pkt.valid).b := by
    rw [offered_first h0]
    exact ⟨rfl, rfl, rfl⟩
  have hlater (h0 : s.txIdx ≠ 0) :
      s.offered.pkt.cksum = s.pkt.cksum ∧ s.offered.ckA = s.ckA ∧ s.offered.ckB = s.ckB := by
    rw [offered_later h0]
    exact ⟨rfl, rfl, rfl⟩
  have hexec := exec_send h hl hc
  cases hs : s.env.sinkReady
  · rw [if_neg (by simp [hs])] at hexec
    exact ⟨_, hexec, hfirst, hlater, fun _ => offered_frame s, nofun⟩
  · rw [if_pos hs] at hexec
    refine ⟨_, hexec, hfirst, hlater, nofun, fun _ => ⟨(Packet.wire s.offered.pkt)[s.txIdx.toNat], ?_, ?_⟩⟩
    · exact (congrArg (·[s.txIdx.toNat]?) (wire_offered s)).symm.trans hc
    · exact congrArg (fun u : State => { u with
        top := if s.txIdx.toNat = s.pkt.length.toNat + 5 then .poll else .send
        txIdx := if s.txIdx.toNat = s.pkt.length.toNat + 5 then s.txIdx else s.txIdx + 1
        env := { s.env with trace := s.env.trace ++ [Event.sinkPut (Packet.wire s.offered.pkt)[s.txIdx.toNat]] } })
        (offered_frame s)

/-- Settles O48: the first byte computes the checksum, the others go out after it. -/
theorem sendEmitsTheWholeFrame : Obligations.SendEmitsTheWholeFrame := by
  intro s h h0 hl hs ht
  have hidx : s.txIdx.toNat = 0 := by rw [h0]; rfl
  have hmore : s.txIdx.toNat ≠ s.pkt.length.toNat + 5 := by omega
  have hin : 0 < (Packet.wire s.finalize.pkt).length := Nat.succ_pos _
  have hstep := step_send h hl hs ht (c := (Packet.wire s.finalize.pkt)[0])
    (by rw [offered_first h0, hidx]; exact List.getElem?_eq_getElem hin)
  rw [offered_first h0, if_neg hmore, if_neg hmore, h0] at hstep
  obtain ⟨n, hn⟩ := run_send_rest (m := s.pkt.length.toNat + 4)
    (s := { s.finalize with
      top := .send, txIdx := 0 + 1
      env := { s.env with trace := s.env.trace ++ [.sinkPut (Packet.wire s.finalize.pkt)[0]] } })
    rfl hl hs ht (show (0 + 1 : BitVec 6) ≠ 0 by decide)
    (show 1 + (s.pkt.length.toNat + 4 + 1) = s.pkt.length.toNat + 6 by omega)
  refine ⟨_, (run_succ_of_step hstep (s.pkt.length.toNat + 5)).trans hn, rfl, ?_, rfl, rfl, rfl⟩
  have hsplit : (Packet.wire s.finalize.pkt).map Event.sinkPut =
      .sinkPut (Packet.wire s.finalize.pkt)[0] :: ((Packet.wire s.finalize.pkt).drop 1).map Event.sinkPut := rfl
  rw [← wire_finalize hl, hsplit]
  exact (List.append_cons s.env.trace _ _).symm

end Sys2Proof

/-! The machine as a whole: what every step of every agent leaves unchanged, what it adds to the record, and the
invariant, with which every step completes. -/

namespace Sys2Proof.Machine

/-! The turns of the other agents. -/

/-- While CORE does not poll, the turn of another agent adds to the queue or changes the environment's own inputs. -/
theorem takeTurn_other {s : State} {a : Turn} (h : s.top ≠ .poll) (hc : a ≠ .core) (hr : a ≠ .reset) :
    ∃ t, takeTurn a s = .next t ∧
      t = { s with
        rxq := t.rxq
        env := { s.env with bootPin := t.env.bootPin, fcBusy := t.env.fcBusy, sinkReady := t.env.sinkReady } } ∧
      ∃ more, t.rxq = s.rxq ++ more := by
  have hnone : ∃ more, s.rxq = s.rxq ++ more := ⟨[], (List.append_nil _).symm⟩
  cases a
  case core => exact absurd rfl hc
  case reset => exact absurd rfl hr
  case line c =>
    refine ⟨_, exec_rxqPush c s, ?_⟩
    split
    · exact ⟨rfl, _, rfl⟩
    · exact ⟨rfl, hnone⟩
  case frame t p => exact ⟨_, receiveBytes_not_poll (frameBytes t p) h, rfl, _, rfl⟩
  all_goals exact ⟨_, rfl, rfl, hnone⟩

/-! What a step may do to the array and to the record. -/

/-- No controller operation was made: the array and the last configuration stand, and the record has only grown by
other events. -/
def State.NoOperation (s t : State) : Prop :=
  t.env.flash = s.env.flash ∧ t.env.fcConfig = s.env.fcConfig ∧
    ∃ es, (∀ op, Event.fc op ∉ es) ∧ t.env.trace = s.env.trace ++ es

theorem State.NoOperation.of_env_eq {s t : State} (h : t.env = s.env) : s.NoOperation t :=
  ⟨by rw [h], by rw [h], [], nofun, by rw [h, List.append_nil]⟩

theorem State.NoOperation.trans {s t u : State} (h : s.NoOperation t) (h' : t.NoOperation u) : s.NoOperation u := by
  obtain ⟨hf, hc, es, hes, ht⟩ := h
  obtain ⟨hf', hc', es', hes', ht'⟩ := h'
  refine ⟨hf'.trans hf, hc'.trans hc, es ++ es', fun op hop => ?_, by rw [ht', ht, List.append_assoc]⟩
  exact (List.mem_append.1 hop).elim (hes op) (hes' op)

/-- The operation that the sequencer's position asks for (43_flash_sequencer.md R143, R144). -/
def State.Asks (s : State) (op : FcOp) : Prop :=
  op = .isBusy s.env.fcBusy ∨ op = .key1 ∨ op = .key2 ∨ op = .configure programCfg ∨
    (s.wfPhase = .eCfg ∧ op = .configure (eraseCfg s.wfS)) ∨
    (s.wfPhase = .pWord ∧ ∃ v, op = .writeWord (s.wfAddr + BitVec.ofNat 32 (4 * s.wfW.toNat)) v)

theorem NoOperation_afterByte (c : Byte) (s : State) : s.NoOperation (s.afterByte c) := by
  obtain ⟨es, hes, h⟩ := afterByte_frame c s
  rw [h]
  exact ⟨rfl, rfl, es, fun op => by rcases hes with rfl | rfl <;> simp, rfl⟩

/-- What a SEND that completes can do: offer the packet, and record the byte if the sink accepts. -/
theorem send_cases {s t : State} (h : s.top = .send) (ht : coreStep s = .next t) :
    s.pkt.length.toNat ≤ maxPayload ∧
    ∃ top n es, (top = .poll ∨ top = .send) ∧ (es = [] ∨ ∃ c, es = [Event.sinkPut c]) ∧
      t = { s.offered with top := top, txIdx := n, env := { s.env with trace := s.env.trace ++ es } } := by
  rw [coreStep_of_not_poll (by simp [h]) (fetch_send h)] at ht
  obtain ⟨-, hguard⟩ := whenEnabled_next (show execSend s = .next t from ht)
  have hl : s.pkt.length.toNat ≤ maxPayload := by
    by_contra hl
    rw [if_neg hl] at hguard
    cases hguard
  rw [if_pos hl] at hguard
  split at hguard
  · cases hguard
  · rename_i c hc
    rw [exec_send h hl hc] at ht
    refine ⟨hl, ?_⟩
    rw [← next_inj ht]
    split
    · exact ⟨_, _, [.sinkPut c], by split <;> simp, .inr ⟨c, rfl⟩, rfl⟩
    · refine ⟨.send, s.txIdx, [], .inr rfl, .inl rfl, ?_⟩
      rw [List.append_nil, offered_frame, ← h]

/-- What a step of CORE in Flash can do to the environment: make the operation that its position asks for, or none. -/
theorem flash_env_cases {s t : State} (h : s.top = .flash) (ht : coreStep s = .next t) :
    s.NoOperation t ∨ ∃ op, s.Asks op ∧ t.env = s.env.perform op := by
  have made {u : State} (op : FcOp) (hstep : coreStep s = .next u) (hask : s.Asks op)
      (he : u.env = s.env.perform op) : s.NoOperation t ∨ ∃ op, s.Asks op ∧ t.env = s.env.perform op :=
    .inr ⟨op, hask, next_inj (hstep.symm.trans ht) ▸ he⟩
  cases hp : s.wfPhase
  case head =>
    left
    by_cases hn : s.wfI.toNat < s.wfN.toNat ∧ s.wfI.toNat < nBufPages
    · rw [← next_inj ((coreStep_page h hp hn.1 hn.2).symm.trans ht)]
      rcases beginPage_cases s (flashPageAddr (s.wfFpage.toNat + s.wfI.toNat)) with ⟨i, -, hb⟩ | ⟨-, hb⟩ <;> rw [hb] <;>
        exact .of_env_eq rfl
    · rw [← next_inj ((coreStep_loop_end h hp hn).symm.trans ht)]
      by_cases hlast : s.wfN.toNat ≤ s.wfI.toNat
      · rw [pageLoop_done hlast]
        exact .of_env_eq rfl
      · rw [pageLoop_halt (Nat.not_le.1 hlast) (Nat.not_lt.1 fun hi => hn ⟨Nat.not_le.1 hlast, hi⟩)]
        exact ⟨rfl, rfl, _, by simp, rfl⟩
  case eWait1 =>
    exact made _ ((coreStep_erase h (by simp [hp])).trans (exec_erase_eWait1 _ h hp)) (.inl rfl) rfl
  case eKey1 =>
    exact made .key1 ((coreStep_erase h (by simp [hp])).trans (exec_erase_eKey1 _ h hp)) (by simp [State.Asks]) rfl
  case eKey2 =>
    exact made .key2 ((coreStep_erase h (by simp [hp])).trans (exec_erase_eKey2 _ h hp)) (by simp [State.Asks]) rfl
  case eCfg =>
    exact made (.configure (eraseCfg s.wfS)) ((coreStep_erase h (by simp [hp])).trans (exec_erase_eCfg _ h hp))
      (by simp [State.Asks, hp]) rfl
  case eWait2 =>
    exact made _ ((coreStep_erase h (by simp [hp])).trans (exec_erase_eWait2 _ h hp)) (.inl rfl) rfl
  case pWait1 =>
    exact made _ ((coreStep_program h (by simp [hp])).trans (exec_program_pWait1 _ _ h hp)) (.inl rfl) rfl
  case pKey1 =>
    exact made .key1 ((coreStep_program h (by simp [hp])).trans (exec_program_pKey1 _ _ h hp)) (by simp [State.Asks]) rfl
  case pKey2 =>
    exact made .key2 ((coreStep_program h (by simp [hp])).trans (exec_program_pKey2 _ _ h hp)) (by simp [State.Asks]) rfl
  case pCfg =>
    exact made (.configure programCfg) ((coreStep_program h (by simp [hp])).trans (exec_program_pCfg _ _ h hp))
      (by simp [State.Asks]) rfl
  case pWord =>
    have hstep := coreStep_program h (by simp [hp])
    cases hv : s.stageWord s.wfI.toNat s.wfW.toNat with
    | none =>
      have hfault : execProgram s.wfAddr s.wfI s = .fault .stageIndex := by
        simp only [execProgram, h, hp, decide_true, whenEnabled_true, hv]
      exact absurd ((hstep.trans hfault).symm.trans ht) nofun
    | some v => exact made (.writeWord _ v) (hstep.trans (exec_program_pWord _ h hp hv)) (by simp [State.Asks, hp]) rfl
  case pWaitW =>
    exact made _ ((coreStep_program h (by simp [hp])).trans (exec_program_pWaitW _ _ h hp)) (.inl rfl) rfl

/-- What a step of CORE can do to the environment. -/
theorem coreStep_env_cases {s t : State} (ht : coreStep s = .next t) :
    s.NoOperation t ∨ s.top = .flash ∧ ∃ op, s.Asks op ∧ t.env = s.env.perform op := by
  cases h : s.top
  case flash => exact (flash_env_cases h ht).imp_right fun hop => ⟨rfl, hop⟩
  case app =>
    rw [coreStep_halted (.inl h)] at ht
    exact .inl (.of_env_eq (by rw [← next_inj ht]))
  case fault =>
    rw [coreStep_halted (.inr h)] at ht
    exact .inl (.of_env_eq (by rw [← next_inj ht]))
  case boot =>
    obtain ⟨_, _, _, -, hboot⟩ := coreStep_boot h
    exact .inl (.of_env_eq (by rw [← next_inj (hboot.symm.trans ht)]))
  case poll =>
    rcases poll_cases h ht with ⟨-, rfl⟩ | ⟨c, rest, -, -, rfl⟩
    · exact .inl (.of_env_eq rfl)
    · exact .inl (NoOperation_afterByte c { s with rxq := rest })
  case dispatch =>
    left
    rcases dispatch_cases h ht with ⟨p, -, -, ⟨-, -, rfl⟩ | ⟨-, -, rfl⟩ | ⟨-, -, rfl⟩⟩ |
      ⟨_, _, _, _, _, -, ⟨u, hu, rfl⟩ | rfl⟩ | ⟨_, _, _, _, _, _, -, rfl⟩ | rfl
    · exact .of_env_eq rfl
    · exact .of_env_eq rfl
    · exact .of_env_eq rfl
    · obtain ⟨-, rfl⟩ := stageWrite_eq_some.1 hu
      exact .of_env_eq rfl
    · exact ⟨rfl, rfl, [.diag .boundsViolation], by simp, rfl⟩
    · exact .of_env_eq rfl
    · exact .of_env_eq rfl
  case send =>
    obtain ⟨-, _, _, es, -, hes, rfl⟩ := send_cases h ht
    exact .inl ⟨rfl, rfl, es, fun op => by rcases hes with rfl | ⟨c, rfl⟩ <;> simp, rfl⟩

/-- A burst of bytes makes no controller operation, whatever CORE does meanwhile. -/
theorem receiveBytes_NoOperation {bytes : List Byte} {s t : State} (h : receiveBytes bytes s = .next t) :
    s.NoOperation t := by
  refine receiveBytes_rel (R := State.NoOperation) (fun s => .of_env_eq rfl) (fun _ _ _ => .trans) ?_ ?_ h
  · intro c s t hpush
    rw [← next_inj hpush]
    split <;> exact .of_env_eq rfl
  · intro s t hp hpop
    cases hq : s.rxq with
    | nil => exact .of_env_eq (by rw [← next_inj ((exec_rxqPop_nil hp hq).symm.trans hpop)])
    | cons c rest =>
      obtain ⟨-, -, rfl⟩ := exec_decodeByte_next (s := { s with rxq := rest }) ((exec_rxqPop_cons hp hq).symm.trans hpop)
      exact NoOperation_afterByte c { s with rxq := rest }

/-- What a turn of another agent can do to the environment. -/
theorem takeTurn_NoOperation {s t : State} {a : Turn} (hc : a ≠ .core) (h : takeTurn a s = .next t) :
    s.NoOperation t := by
  cases a
  case core => exact absurd rfl hc
  case line c =>
    rw [← next_inj h]
    split <;> exact .of_env_eq rfl
  case frame ty p => exact receiveBytes_NoOperation h
  case reset => exact .of_env_eq (by rw [← next_inj h]; rfl)
  all_goals
    rw [← next_inj h]
    exact ⟨rfl, rfl, [], nofun, (List.append_nil _).symm⟩

/-- What a step of any agent can do to the array and to the record: only CORE, only in Flash, makes an operation, and
exactly the one that the sequencer's position asks for (R140). -/
theorem step_env_cases {s t : State} (h : step s = .next t) :
    s.NoOperation t ∨
    s.top = .flash ∧ (s.env.turns = [] ∨ s.env.turns.head? = some .core) ∧
      ∃ op e, s.Asks op ∧ t.env = Env.perform e op ∧ e.flash = s.env.flash ∧ e.trace = s.env.trace := by
  rcases step_cases s with ⟨hturns, hs⟩ | ⟨a, ts, hturns, hs⟩
  · exact (coreStep_env_cases (hs.symm.trans h)).imp_right fun ⟨htop, op, hop, he⟩ =>
      ⟨htop, .inl hturns, op, s.env, hop, he, rfl, rfl⟩
  · have hhead : s.env.turns.head? = some a := by rw [hturns]; rfl
    by_cases hc : a = .core
    · subst hc
      rcases coreStep_env_cases (hs.symm.trans h) with hno | ⟨htop, op, hop, he⟩
      · exact .inl hno
      · exact .inr ⟨htop, .inr hhead, op, (s.setTurns ts).env, hop, he, rfl, rfl⟩
    · exact .inl (takeTurn_NoOperation (s := s.setTurns ts) hc (hs.symm.trans h))

/-- A byte of the array changes only in the sector of an erase, where it becomes FF, or in the word of a write. -/
theorem read_perform_ne {e : Env} {op : FcOp} {a : Nat}
    (h : (e.perform op).flash.read flashDefault a ≠ e.flash.read flashDefault a) :
    (∃ c, op = .configure c) ∨ ∃ addr v, op = .writeWord addr v ∧ addr.toNat ≤ a ∧ a < addr.toNat + 4 := by
  cases op
  case configure c => exact .inl ⟨c, rfl⟩
  case writeWord addr v =>
    refine .inr ⟨addr, v, rfl, ?_⟩
    by_contra hout
    exact h (read_applyWrite_outside { e with trace := _ } addr.toNat v (by omega))
  all_goals exact absurd rfl h

/-! The staging store. -/

/-- A step of CORE changes the staging store only where it dispatches a LOADBUFFER. -/
theorem coreStep_stage {s t : State} (h : coreStep s = .next t) (hne : t.stage ≠ s.stage) :
    s.top = .dispatch ∧ ∃ lead len page address data, decodePacket s.pkt = .loadbuffer lead len page address data := by
  cases htop : s.top
  case boot =>
    obtain ⟨_, _, _, -, hboot⟩ := coreStep_boot htop
    exact absurd (by rw [← next_inj (hboot.symm.trans h)]) hne
  case app => exact absurd (by rw [← next_inj ((coreStep_halted (.inl htop)).symm.trans h)]) hne
  case fault => exact absurd (by rw [← next_inj ((coreStep_halted (.inr htop)).symm.trans h)]) hne
  case poll =>
    rcases poll_cases htop h with ⟨-, rfl⟩ | ⟨c, rest, -, -, rfl⟩
    · exact absurd rfl hne
    · obtain ⟨es, -, hafter⟩ := afterByte_frame c { s with rxq := rest }
      exact absurd (by rw [hafter]) hne
  case dispatch =>
    rcases dispatch_cases htop h with ⟨p, -, -, ⟨-, -, rfl⟩ | ⟨-, -, rfl⟩ | ⟨-, -, rfl⟩⟩ |
      ⟨lead, len, page, addr, data, hi, -⟩ | ⟨_, _, _, _, _, _, -, rfl⟩ | rfl
    case inr.inl => exact ⟨rfl, lead, len, page, addr, data, hi⟩
    all_goals exact absurd rfl hne
  case flash =>
    rcases flash_cases htop h with ht | ⟨-, -, -, rfl⟩ | ⟨-, -, rfl⟩
    · exact absurd (by rw [ht]) hne
    · exact absurd rfl hne
    · exact absurd rfl hne
  case send =>
    obtain ⟨-, _, _, _, -, -, rfl⟩ := send_cases htop h
    exact absurd (by rw [offered_frame]) hne

/-- A burst of bytes leaves the staging store. -/
theorem receiveBytes_stage {bytes : List Byte} {s t : State} (h : receiveBytes bytes s = .next t) :
    t.stage = s.stage := by
  refine receiveBytes_rel (R := fun s t => t.stage = s.stage) (fun _ => rfl) (fun _ _ _ h h' => h'.trans h) ?_ ?_ h
  · intro c s t hpush
    rw [← next_inj hpush]
    split <;> rfl
  · intro s t hp hpop
    cases hq : s.rxq with
    | nil => rw [← next_inj ((exec_rxqPop_nil hp hq).symm.trans hpop)]
    | cons c rest =>
      obtain ⟨-, -, rfl⟩ := exec_decodeByte_next (s := { s with rxq := rest }) ((exec_rxqPop_cons hp hq).symm.trans hpop)
      obtain ⟨es, -, hafter⟩ := afterByte_frame c { s with rxq := rest }
      rw [hafter]

/-- While a packet is dispatched, programmed or answered, a step of CORE leaves the receive side alone. -/
theorem coreStep_rx {s t : State} (htop : s.top = .dispatch ∨ s.top = .flash ∨ s.top = .send)
    (h : coreStep s = .next t) : t.fst = s.fst ∧ t.rxCount = s.rxCount ∧ t.rxq = s.rxq := by
  rcases htop with htop | htop | htop
  · rcases dispatch_cases htop h with ⟨p, -, -, ⟨-, -, rfl⟩ | ⟨-, -, rfl⟩ | ⟨-, -, rfl⟩⟩ |
      ⟨_, _, _, _, _, -, ⟨u, hu, rfl⟩ | rfl⟩ | ⟨_, _, _, _, _, _, -, rfl⟩ | rfl
    case inr.inl.inl =>
      obtain ⟨-, rfl⟩ := stageWrite_eq_some.1 hu
      exact ⟨rfl, rfl, rfl⟩
    all_goals exact ⟨rfl, rfl, rfl⟩
  · rcases flash_cases htop h with ht | ⟨-, -, -, rfl⟩ | ⟨-, -, rfl⟩
    · rw [ht]
      exact ⟨rfl, rfl, rfl⟩
    · exact ⟨rfl, rfl, rfl⟩
    · exact ⟨rfl, rfl, rfl⟩
  · obtain ⟨-, _, _, _, -, -, rfl⟩ := send_cases htop h
    rw [offered_frame]
    exact ⟨rfl, rfl, rfl⟩

end Sys2Proof.Machine

namespace Sys2Proof

open Machine

/-- Settles O44: outside Flash no step makes a controller operation. -/
theorem flashIsTouchedOnlyInFlashState : Obligations.FlashIsTouchedOnlyInFlashState := by
  intro s t h htop
  rcases step_env_cases h with ⟨hflash, hcfg, es, hes, htrace⟩ | ⟨hf, -⟩
  · refine ⟨hflash, hcfg, ?_⟩
    rw [State.fcOps, htrace, List.filterMap_append]
    refine (congrArg (_ ++ ·) (List.filterMap_eq_nil_iff.2 fun e he => ?_)).trans (List.append_nil _)
    cases e
    case fc op => exact absurd he (hes op)
    all_goals rfl
  · exact absurd hf htop

/-- Settles O45: by the operation that the sequencer's position asks for. -/
theorem flashByteChangesOnlyWhereTheOperationPoints : Obligations.FlashByteChangesOnlyWhereTheOperationPoints := by
  intro s t a h hne
  rcases step_env_cases h with ⟨hflash, -⟩ | ⟨htop, hturn, op, e, hask, henv, heflash, -⟩
  · exact absurd (by rw [hflash]) hne
  refine ⟨htop, hturn, ?_⟩
  rw [henv, ← heflash] at hne
  rcases hask with rfl | rfl | rfl | rfl | ⟨hp, rfl⟩ | ⟨hp, v, rfl⟩
  · exact absurd rfl hne
  · exact absurd rfl hne
  · exact absurd rfl hne
  · rw [Env.perform, applyConfig_programCfg] at hne
    exact absurd rfl hne
  · left
    rw [Env.perform, read_applyConfig_eraseCfg] at hne
    rw [henv, Env.perform, read_applyConfig_eraseCfg]
    split at hne
    · rename_i hin
      rw [if_pos hin]
      obtain ⟨h12, hlo, hhi⟩ := hin
      rw [sectorEnd_eq h12] at hhi
      exact ⟨hp, h12, hlo, hhi, rfl⟩
    · exact absurd rfl hne
  · right
    rcases read_perform_ne hne with ⟨c, hc⟩ | ⟨addr, w, hw, hlo, hhi⟩
    · cases hc
    · cases hw
      exact ⟨hp, hlo, hhi⟩

/-- Settles O50: CORE stands still, and no other turn but the reset does more than queue bytes. -/
theorem onlyResetLeavesAppAndFault : Obligations.OnlyResetLeavesAppAndFault := by
  intro s htop hreset
  have hnone : ∃ more, s.rxq = s.rxq ++ more := ⟨[], (List.append_nil _).symm⟩
  rcases step_cases s with ⟨hturns, hs⟩ | ⟨a, ts, hturns, hs⟩
  · exact ⟨s, hs.trans (coreStep_halted htop), rfl, hnone⟩
  by_cases hc : a = .core
  · subst hc
    exact ⟨s.setTurns ts, hs.trans (coreStep_halted htop), rfl, hnone⟩
  · have hpoll : (s.setTurns ts).top ≠ .poll := fun h => by
      rcases htop with htop | htop <;> exact absurd (htop.symm.trans h) nofun
    have hr : a ≠ .reset := fun h => hreset (by rw [hturns, h]; rfl)
    obtain ⟨t, ht, hframe, hmore⟩ := takeTurn_other hpoll hc hr
    refine ⟨t, hs.trans ht, ?_, hmore⟩
    rw [hframe]
    rfl

/-- Settles O54: CORE leaves the receive side alone, and the other agents only queue bytes. -/
theorem onePacketAtATime : Obligations.OnePacketAtATime := by
  intro s t htop hreset h
  rcases step_cases s with ⟨hturns, hs⟩ | ⟨a, ts, hturns, hs⟩ <;> rw [hs] at h
  · obtain ⟨hf, hc, hq⟩ := coreStep_rx htop h
    exact ⟨hf, hc, [], by rw [hq, List.append_nil]⟩
  by_cases hc : a = .core
  · subst hc
    obtain ⟨hf, hc, hq⟩ := coreStep_rx (s := s.setTurns ts) htop h
    exact ⟨hf, hc, [], by rw [hq, List.append_nil]; rfl⟩
  · have hpoll : (s.setTurns ts).top ≠ .poll := fun h => by
      rcases htop with htop | htop | htop <;> exact absurd (htop.symm.trans h) nofun
    have hr : a ≠ .reset := fun h => hreset (by rw [hturns, h]; rfl)
    obtain ⟨u, hu, hframe, hmore⟩ := takeTurn_other hpoll hc hr
    obtain rfl : u = t := next_inj (hu.symm.trans h)
    exact ⟨by rw [hframe]; rfl, by rw [hframe]; rfl, hmore⟩

/-- Settles O55: CORE writes the store only for a LOADBUFFER, and no other agent but the reset touches it. -/
theorem stageIsWrittenOnlyByLoadbuffer : Obligations.StageIsWrittenOnlyByLoadbuffer := by
  intro s t hreset h hne
  rcases step_cases s with ⟨hturns, hs⟩ | ⟨a, ts, hturns, hs⟩ <;> rw [hs] at h
  · obtain ⟨htop, hload⟩ := coreStep_stage h hne
    exact ⟨htop, .inl hturns, hload⟩
  have hhead : s.env.turns.head? = some a := by rw [hturns]; rfl
  cases a
  case core =>
    obtain ⟨htop, hload⟩ := coreStep_stage (s := s.setTurns ts) h hne
    exact ⟨htop, .inr hhead, hload⟩
  case reset => exact absurd hhead hreset
  case line c =>
    refine absurd ?_ hne
    rw [← next_inj h]
    split <;> rfl
  case frame ty p => exact absurd (receiveBytes_stage h) hne
  all_goals exact absurd (by rw [← next_inj h]; rfl) hne

/-- Settles O56: a step adds other events, or the one operation that it makes. -/
theorem outputsAreNeverTakenBack : Obligations.OutputsAreNeverTakenBack := by
  intro s t h
  rcases step_env_cases h with ⟨-, -, es, -, htrace⟩ | ⟨-, -, op, e, -, henv, -, htrace⟩
  · exact ⟨es, htrace⟩
  · exact ⟨[.fc op], by rw [henv, Env.perform_trace, htrace]⟩

end Sys2Proof

/-! The invariant of the machine (Safety.lean, State.Inv): every step of every agent completes and keeps it. -/

namespace Sys2Proof.Machine

/-! The invariant by the value of `top`. -/

/-- Where no packet is processed, the receive side and the memories are all there is to the invariant. -/
theorem inv_of_resting {s : State} (hd : s.top ≠ .dispatch) (hf : s.top ≠ .flash) (hs : s.top ≠ .send)
    (hrx : s.rxInv) (hmem : s.memInv) : s.Inv where
  rx := hrx
  packet := ⟨fun h => absurd h hd, fun h => absurd h hs, fun h => by
    rcases h with h | h | h
    · exact absurd h hd
    · exact absurd h hf
    · exact absurd h hs⟩
  flash := fun h => absurd h hf
  mem := hmem

/-- While the framer hunts, the receive side is its queue's bound. -/
theorem rxInv_of_hunting {s : State} (hf : s.fst = .waitSync1) (hq : s.rxq.length ≤ rxqCap) : s.rxInv :=
  ⟨hq, by simp [hf], by simp [hf]⟩

theorem inv_of_poll {s : State} (h : s.top = .poll) (hrx : s.rxInv) (hmem : s.memInv) : s.Inv :=
  inv_of_resting (by simp [h]) (by simp [h]) (by simp [h]) hrx hmem

theorem inv_of_dispatch {s : State} (h : s.top = .dispatch) (hf : s.fst = .waitSync1) (hq : s.rxq.length ≤ rxqCap)
    (hl : s.pkt.length.toNat ≤ maxPayload) (hmem : s.memInv) : s.Inv where
  rx := rxInv_of_hunting hf hq
  packet := ⟨fun _ => hl, by simp [h], fun _ => hf⟩
  flash := by simp [State.flashInv, h]
  mem := hmem

theorem inv_of_send {s : State} (h : s.top = .send) (hf : s.fst = .waitSync1) (hq : s.rxq.length ≤ rxqCap)
    (hl : s.pkt.length = infoReplyLen ∨ s.pkt.length = statusReplyLen) (hi : s.txIdx.toNat ≤ s.pkt.length.toNat + 5)
    (hmem : s.memInv) : s.Inv where
  rx := rxInv_of_hunting hf hq
  packet := ⟨by simp [h], fun _ => ⟨hl, hi⟩, fun _ => hf⟩
  flash := by simp [State.flashInv, h]
  mem := hmem

theorem inv_of_flash {s : State} (h : s.top = .flash) (hf : s.fst = .waitSync1) (hq : s.rxq.length ≤ rxqCap)
    (hflash : s.flashInv) (hmem : s.memInv) : s.Inv where
  rx := rxInv_of_hunting hf hq
  packet := ⟨by simp [h], by simp [h], fun _ => hf⟩
  flash := hflash
  mem := hmem

/-- The invariant sees of the environment the array alone. -/
theorem State.Inv.setEnv {s : State} {e : Env} (h : s.Inv) (he : Memory.wf flashDefault e.flash = true) :
    State.Inv { s with env := e } where
  rx := h.rx
  packet := h.packet
  flash := h.flash
  mem := ⟨h.mem.1, h.mem.2.1, he⟩

/-- The invariant sees of the queue its length alone. -/
theorem State.Inv.setRxq {s : State} {q : List Byte} (h : s.Inv) (hq : q.length ≤ rxqCap) :
    State.Inv { s with rxq := q } where
  rx := ⟨hq, h.rx.2⟩
  packet := h.packet
  flash := h.flash
  mem := h.mem

/-! The receive queue and the framer. -/

theorem push_inv {s : State} (c : Byte) (h : s.Inv) : ∃ t, exec (.rxqPush c) s = .next t ∧ t.Inv := by
  refine ⟨_, exec_rxqPush c s, ?_⟩
  split
  · rename_i hq
    exact h.setRxq (by rw [List.length_append]; exact hq)
  · exact h

/-- A byte-step of a polling CORE keeps the invariant. -/
theorem afterByte_inv {s : State} (c : Byte) (hp : s.top = .poll) (hrx : s.rxInv) (hmem : s.memInv) :
    (s.afterByte c).Inv := by
  obtain ⟨hq, hcount, hlen⟩ := hrx
  cases hf : s.fst <;> simp only [State.afterByte, hf]
  case waitSync1 =>
    split
    · exact inv_of_poll hp ⟨hq, nofun, by simp⟩ hmem
    · exact inv_of_poll hp (rxInv_of_hunting rfl hq) hmem
  case waitSync2 => exact inv_of_poll hp ⟨hq, by simp; split <;> simp, by split <;> simp⟩ hmem
  case readType => exact inv_of_poll hp ⟨hq, nofun, by simp⟩ hmem
  case readLength =>
    split_ifs with hover hzero
    · exact inv_of_poll hp (rxInv_of_hunting rfl hq) hmem
    · exact inv_of_poll hp ⟨hq, nofun, fun _ => Nat.not_lt.1 hover⟩ hmem
    · refine inv_of_poll hp ⟨hq, fun _ => ?_, fun _ => Nat.not_lt.1 hover⟩ hmem
      exact Nat.pos_of_ne_zero fun h0 => hzero (BitVec.eq_of_toNat_eq h0)
  case readPayload =>
    have hlt := hcount hf
    have hl := hlen (.inl hf)
    refine inv_of_poll hp ⟨hq, ?_, fun _ => hl⟩ hmem
    split
    · simp
    · rename_i hne
      intro _
      have hl32 : s.pkt.length.toNat ≤ 32 := hl
      change (s.rxCount + 1).toNat < s.pkt.length.toNat
      rw [BitVec.toNat_add]
      change (s.rxCount.toNat + 1) % 64 < _
      omega
  case readChecksumLow => exact inv_of_poll hp ⟨hq, nofun, fun _ => hlen (.inr (.inl hf))⟩ hmem
  case readChecksumHigh =>
    split
    · exact inv_of_dispatch rfl rfl hq (hlen (.inr (.inr hf))) hmem
    · exact inv_of_poll rfl (rxInv_of_hunting rfl hq) hmem

/-- A poll keeps the invariant, whether the queue is empty or not. -/
theorem pop_inv {s : State} (hp : s.top = .poll) (h : s.Inv) : ∃ t, exec .rxqPop s = .next t ∧ t.Inv := by
  cases hq : s.rxq with
  | nil => exact ⟨s, exec_rxqPop_nil hp hq, h⟩
  | cons c rest =>
    have hrest : rest.length ≤ rxqCap := by
      have hlen := h.rx.1
      rw [hq, List.length_cons] at hlen
      exact (Nat.le_succ _).trans hlen
    have hrx : State.rxInv { s with rxq := rest } := ⟨hrest, h.rx.2⟩
    exact ⟨_, (exec_rxqPop_cons hp hq).trans (exec_decodeByte (s := { s with rxq := rest }) c hp hrx.byteReady),
      afterByte_inv (s := { s with rxq := rest }) c hp hrx h.mem⟩

/-- A burst of bytes, with CORE polling after each where it polls, keeps the invariant. -/
theorem receiveBytes_inv (bytes : List Byte) {s : State} (h : s.Inv) :
    ∃ t, receiveBytes bytes s = .next t ∧ t.Inv := by
  induction bytes generalizing s with
  | nil => exact ⟨s, rfl, h⟩
  | cons c cs ih =>
    obtain ⟨u, hpush, hu⟩ := push_inv c h
    have hbyte : ∃ v, receiveByte c s = .next v ∧ v.Inv := by
      have hrecv : receiveByte c s = if u.top = .poll then execRxqPop u else .next u :=
        congrArg (andThen · _) hpush
      rw [hrecv]
      split
      · rename_i hp
        exact pop_inv hp hu
      · exact ⟨u, rfl, hu⟩
    obtain ⟨v, hv, hinv⟩ := hbyte
    obtain ⟨t, ht, hinv'⟩ := ih hinv
    exact ⟨t, by rw [receiveBytes, hv, andThen_next, ht], hinv'⟩

/-! The dispatcher. -/

theorem dispatch_inv {s : State} (hd : s.top = .dispatch) (h : s.Inv) : ∃ t, coreStep s = .next t ∧ t.Inv := by
  have hf : s.fst = .waitSync1 := h.packet.2.2 (.inl hd)
  have hq := h.rx.1
  have hl : s.pkt.length.toNat ≤ 32 := h.packet.1 hd
  have hmem := h.mem
  have ignored : State.Inv { s with replyRequired := false, top := .poll } :=
    inv_of_poll rfl (rxInv_of_hunting hf hq) hmem
  rw [coreStep_of_not_poll (by simp [hd]) (fetch_dispatch hd)]
  rcases decodePacket_cases s.pkt with ⟨-, hi⟩ | ⟨-, hi⟩ | ⟨-, hi⟩ | ⟨-, hi⟩ | ⟨-, hi⟩ | ⟨-, hi⟩ | ⟨-, hi⟩ | ⟨-, hi⟩ |
    ⟨-, hi⟩ <;> rw [hi]
  · exact ⟨_, exec_getinfo _ _ hd, inv_of_send rfl hf hq (.inl rfl) (Nat.zero_le _) hmem⟩
  · exact ⟨_, exec_getmapping _ _ hd, inv_of_poll rfl (rxInv_of_hunting hf hq) hmem⟩
  · by_cases hb : boundsOk s.pkt.length.toNat (s.pkt.cmd16 1).toNat (s.pkt.cmd16 3).toNat = true
    · have hdata : (s.pkt.valid.drop lbHeader).length = s.pkt.length.toNat - 7 := by
        rw [List.length_drop, Packet.valid_length, Nat.min_eq_left hl]
      obtain ⟨-, hp, ha⟩ := boundsOk_iff.1 hb
      refine ⟨_, exec_loadbuffer _ hd hb hdata, inv_of_poll rfl (rxInv_of_hunting hf hq) ⟨?_, ?_, hmem.2.2⟩⟩
      · exact Memory.wf_writeBytes _ _ hmem.1
      · intro c hc
        rcases Memory.mem_writeBytes hc with hc | ⟨-, hhi⟩
        · exact hmem.2.1 c hc
        · have hhi : c.1 < 1024 * (s.pkt.cmd16 1).toNat + (s.pkt.cmd16 3).toNat +
            (s.pkt.valid.drop lbHeader).length := hhi
          change c.1 < 10 * 1024
          omega
    · exact ⟨_, exec_loadbuffer_outside _ _ hd hb, inv_of_poll rfl (rxInv_of_hunting hf hq) hmem⟩
  · exact ⟨_, exec_readbuffer _ _ hd, ignored⟩
  · refine ⟨_, exec_writeflash_dispatch _ _ _ _ _ _ hd,
      inv_of_flash rfl hf hq (fun _ => ⟨Nat.zero_le _, ?_, ?_⟩) hmem⟩
    · exact fun hne => absurd rfl hne
    · simp
  · exact ⟨_, exec_flashstatus _ _ hd, inv_of_send rfl hf hq (.inr rfl) (Nat.zero_le _) hmem⟩
  · exact ⟨_, exec_readflash _ _ hd, ignored⟩
  · exact ⟨_, exec_defaultArm _ _ _ hd, ignored⟩
  · exact ⟨_, exec_ignored _ hd, ignored⟩

/-! The flash sequencer. -/

/-- The phases of an erase. -/
abbrev WfPhase.InErase (p : WfPhase) : Prop := p = .eWait1 ∨ p = .eKey1 ∨ p = .eKey2 ∨ p = .eCfg ∨ p = .eWait2

/-- Inside a page the sequencer may go on to any phase of the page, to a phase of the erase only from one. -/
theorem State.Inv.goOn {s : State} (h : s.Inv) (htop : s.top = .flash) (hp : s.wfPhase ≠ .head) (op : FcOp) {p : WfPhase}
    (w : BitVec 8) (herase : WfPhase.InErase p → WfPhase.InErase s.wfPhase) :
    State.Inv { s with wfPhase := p, wfW := w, env := s.env.perform op } := by
  obtain ⟨hi, hin, hsec⟩ := h.flash htop
  exact inv_of_flash htop (h.packet.2.2 (.inr (.inl htop))) h.rx.1
    (fun _ => ⟨hi, fun _ => hin hp, fun he => hsec (herase he)⟩)
    ⟨h.mem.1, h.mem.2.1, Env.perform_wf op h.mem.2.2⟩

/-- At the top of the page loop: the next page, the halt, or the reply. -/
theorem head_inv {s : State} (htop : s.top = .flash) (hp : s.wfPhase = .head) (h : s.Inv) :
    ∃ t, coreStep s = .next t ∧ t.Inv := by
  have hf : s.fst = .waitSync1 := h.packet.2.2 (.inr (.inl htop))
  have hi : s.wfI.toNat ≤ nBufPages := (h.flash htop).1
  by_cases hn : s.wfI.toNat < s.wfN.toNat ∧ s.wfI.toNat < nBufPages
  · refine ⟨_, coreStep_page htop hp hn.1 hn.2, ?_⟩
    rcases beginPage_cases s (flashPageAddr (s.wfFpage.toNat + s.wfI.toNat)) with ⟨i, hsec, hb⟩ | ⟨-, hb⟩ <;> rw [hb]
    · have hi16 : (BitVec.ofNat 4 i).toNat = i := by
        have := sectorIndex_lt hsec
        rw [BitVec.toNat_ofNat]
        omega
      exact inv_of_flash htop hf h.rx.1 (fun _ => ⟨hi, fun _ => ⟨hn.2, hn.1, rfl⟩, fun _ => hi16.symm ▸ hsec⟩) h.mem
    · exact inv_of_flash htop hf h.rx.1 (fun _ => ⟨hi, fun _ => ⟨hn.2, hn.1, rfl⟩, by simp⟩) h.mem
  · refine ⟨_, coreStep_loop_end htop hp hn, ?_⟩
    by_cases hlast : s.wfN.toNat ≤ s.wfI.toNat
    · rw [pageLoop_done hlast]
      exact inv_of_send rfl hf h.rx.1 (.inr rfl) (Nat.zero_le _) h.mem
    · have hten : 10 ≤ s.wfI.toNat := Nat.not_lt.1 fun hlt => hn ⟨Nat.not_le.1 hlast, hlt⟩
      rw [pageLoop_halt (Nat.not_le.1 hlast) hten]
      exact inv_of_resting nofun nofun nofun (rxInv_of_hunting hf h.rx.1) h.mem

/-- After the wait that follows a word: the next word, the next page, or the same wait. -/
theorem waitWord_inv {s : State} (htop : s.top = .flash) (hp : s.wfPhase = .pWaitW) (h : s.Inv) :
    ∃ t, coreStep s = .next t ∧ t.Inv := by
  have hne : s.wfPhase ≠ .head := by simp [hp]
  refine ⟨_, (coreStep_program htop (by simp [hp])).trans (exec_program_pWaitW _ _ htop hp), ?_⟩
  by_cases hend : s.env.fcBusy = false ∧ s.wfW = 255
  · obtain ⟨hb, hw⟩ := hend
    obtain ⟨hi, -, -⟩ := (h.flash htop).2.1 hne
    have hi : s.wfI.toNat < 10 := hi
    simp only [hb, hw, Bool.false_eq_true, if_false, if_true, or_true, and_self]
    refine inv_of_flash htop (h.packet.2.2 (.inr (.inl htop))) h.rx.1 (fun _ => ⟨?_, fun hne => absurd rfl hne, by simp⟩)
      ⟨h.mem.1, h.mem.2.1, h.mem.2.2⟩
    change (s.wfI + 1).toNat ≤ 10
    rw [BitVec.toNat_add]
    change (s.wfI.toNat + 1) % 16 ≤ 10
    omega
  · rw [if_neg hend]
    exact h.goOn htop hne _ _ fun he => by
      revert he
      cases hb : s.env.fcBusy
      · simp [hb] at hend
        simp [hend]
      · simp

theorem flash_inv {s : State} (htop : s.top = .flash) (h : s.Inv) : ∃ t, coreStep s = .next t ∧ t.Inv := by
  cases hp : s.wfPhase
  case head => exact head_inv htop hp h
  case pWaitW => exact waitWord_inv htop hp h
  case eWait1 =>
    exact ⟨_, (coreStep_erase htop (by simp [hp])).trans (exec_erase_eWait1 _ htop hp),
      h.goOn htop (by simp [hp]) _ s.wfW fun _ => .inl hp⟩
  case eKey1 =>
    exact ⟨_, (coreStep_erase htop (by simp [hp])).trans (exec_erase_eKey1 _ htop hp),
      h.goOn htop (by simp [hp]) _ s.wfW fun _ => .inr (.inl hp)⟩
  case eKey2 =>
    exact ⟨_, (coreStep_erase htop (by simp [hp])).trans (exec_erase_eKey2 _ htop hp),
      h.goOn htop (by simp [hp]) _ s.wfW fun _ => .inr (.inr (.inl hp))⟩
  case eCfg =>
    exact ⟨_, (coreStep_erase htop (by simp [hp])).trans (exec_erase_eCfg _ htop hp),
      h.goOn htop (by simp [hp]) _ s.wfW fun _ => .inr (.inr (.inr (.inl hp)))⟩
  case eWait2 =>
    exact ⟨_, (coreStep_erase htop (by simp [hp])).trans (exec_erase_eWait2 _ htop hp),
      h.goOn htop (by simp [hp]) _ s.wfW fun _ => .inr (.inr (.inr (.inr hp)))⟩
  case pWait1 =>
    exact ⟨_, (coreStep_program htop (by simp [hp])).trans (exec_program_pWait1 _ _ htop hp),
      h.goOn htop (by simp [hp]) _ s.wfW (by split <;> simp)⟩
  case pKey1 =>
    exact ⟨_, (coreStep_program htop (by simp [hp])).trans (exec_program_pKey1 _ _ htop hp),
      h.goOn htop (by simp [hp]) _ s.wfW (by simp)⟩
  case pKey2 =>
    exact ⟨_, (coreStep_program htop (by simp [hp])).trans (exec_program_pKey2 _ _ htop hp),
      h.goOn htop (by simp [hp]) _ s.wfW (by simp)⟩
  case pCfg =>
    exact ⟨_, (coreStep_program htop (by simp [hp])).trans (exec_program_pCfg _ _ htop hp),
      h.goOn htop (by simp [hp]) _ 0 (by simp)⟩
  case pWord =>
    have hpage := ((h.flash htop).2.1 (by simp [hp])).1
    exact ⟨_, (coreStep_program htop (by simp [hp])).trans
      (exec_program_pWord _ htop hp (stageWord_inside s hpage s.wfW.isLt)),
      h.goOn htop (by simp [hp]) _ s.wfW (by simp)⟩

/-! SEND. -/

theorem send_inv {s : State} (htop : s.top = .send) (h : s.Inv) : ∃ t, coreStep s = .next t ∧ t.Inv := by
  obtain ⟨hlen, hidx⟩ := h.packet.2.1 htop
  have hf : s.fst = .waitSync1 := h.packet.2.2 (.inr (.inr htop))
  have hl : s.pkt.length.toNat ≤ 32 := by rcases hlen with hlen | hlen <;> rw [hlen] <;> decide
  have hin : s.txIdx.toNat < (Packet.wire s.offered.pkt).length := by
    rw [wire_offered_length hl]
    omega
  obtain ⟨c, hc⟩ : ∃ c, (Packet.wire s.offered.pkt)[s.txIdx.toNat]? = some c := ⟨_, List.getElem?_eq_getElem hin⟩
  refine ⟨_, (coreStep_of_not_poll (by simp [htop]) (fetch_send htop)).trans (exec_send htop hl hc), ?_⟩
  rw [offered_frame]
  split
  · by_cases hlast : s.txIdx.toNat = s.pkt.length.toNat + 5
    · rw [if_pos hlast, if_pos hlast]
      exact inv_of_poll rfl (rxInv_of_hunting hf h.rx.1) h.mem
    · rw [if_neg hlast, if_neg hlast]
      refine inv_of_send rfl hf h.rx.1 hlen ?_ h.mem
      change (s.txIdx + 1).toNat ≤ s.pkt.length.toNat + 5
      rw [BitVec.toNat_add]
      change (s.txIdx.toNat + 1) % 64 ≤ _
      omega
  · exact inv_of_send htop hf h.rx.1 hlen hidx h.mem

/-! Every step. -/

/-- CORE's step completes and keeps the invariant. -/
theorem coreStep_inv {s : State} (h : s.Inv) : ∃ t, coreStep s = .next t ∧ t.Inv := by
  cases htop : s.top
  case boot =>
    obtain ⟨stay, word, top, hnext, hboot⟩ := coreStep_boot htop
    refine ⟨_, hboot, ?_⟩
    rcases hnext with rfl | rfl
    · exact inv_of_resting nofun nofun nofun h.rx h.mem
    · exact inv_of_poll rfl h.rx h.mem
  case app => exact ⟨s, coreStep_halted (.inl htop), h⟩
  case fault => exact ⟨s, coreStep_halted (.inr htop), h⟩
  case poll =>
    cases hq : s.rxq with
    | nil => exact ⟨s, coreStep_poll_nil htop hq, h⟩
    | cons c rest =>
      obtain ⟨t, ht, hinv⟩ := pop_inv htop h
      exact ⟨t, (coreStep_poll_cons htop hq).trans ((exec_rxqPop_cons htop hq).symm.trans ht), hinv⟩
  case dispatch => exact dispatch_inv htop h
  case flash => exact flash_inv htop h
  case send => exact send_inv htop h

/-- The reset keeps the invariant, with whatever array it finds. -/
theorem hardwareReset_inv {s : State} (h : s.Inv) : s.hardwareReset.Inv :=
  inv_of_resting nofun nofun nofun (rxInv_of_hunting rfl (Nat.zero_le _)) ⟨rfl, nofun, h.mem.2.2⟩

/-- Every turn of every agent completes and keeps the invariant. -/
theorem takeTurn_inv (a : Turn) {s : State} (h : s.Inv) : ∃ t, takeTurn a s = .next t ∧ t.Inv := by
  cases a
  case core => exact coreStep_inv h
  case line c => exact push_inv c h
  case frame t p => exact receiveBytes_inv (frameBytes t p) h
  case reset => exact ⟨_, rfl, hardwareReset_inv h⟩
  all_goals exact ⟨_, rfl, h.setEnv h.mem.2.2⟩

/-- Every step completes and keeps the invariant. -/
theorem step_inv {s : State} (h : s.Inv) : ∃ t, step s = .next t ∧ t.Inv := by
  rcases step_cases s with ⟨-, hs⟩ | ⟨a, ts, -, hs⟩ <;> rw [hs]
  · exact coreStep_inv h
  · exact takeTurn_inv a (h.setEnv (e := { s.env with turns := ts }) h.mem.2.2)

end Sys2Proof.Machine

namespace Sys2Proof

open Machine

/-- Settles O57: the step that completes is the step that is taken. -/
theorem everyStepKeepsTheInvariant : Obligations.EveryStepKeepsTheInvariant := by
  intro s t h ht
  obtain ⟨u, hu, hinv⟩ := step_inv h
  exact next_inj (hu.symm.trans ht) ▸ hinv

/-- Settles O58. -/
theorem resetMeetsTheInvariant : Obligations.ResetMeetsTheInvariant :=
  inv_of_resting nofun nofun nofun (rxInv_of_hunting rfl (Nat.zero_le _)) ⟨rfl, nofun, rfl⟩

/-- Settles O59. -/
theorem everyStepCompletes : Obligations.EveryStepCompletes := fun _ h => by
  obtain ⟨t, ht, -⟩ := step_inv h
  exact ⟨t, ht⟩

end Sys2Proof

/-! A whole WRITEFLASH (42_commands.md R118, R119, 43_flash_sequencer.md R148): with a controller that is idle at every poll
and only CORE moving, the run makes the operations of its pages one after another. -/

namespace Sys2Proof.Machine

/-! Runs of some number of steps. -/

/-- Some number of steps leads from `s` to `t`. -/
def Reaches (s t : State) : Prop := ∃ k, Sys2Proof.core.run k s = .next t

theorem Reaches.refl (s : State) : Reaches s s := ⟨0, rfl⟩

theorem Reaches.of_step {s t : State} (h : step s = .next t) : Reaches s t := ⟨1, (run_succ_of_step h 0).trans rfl⟩

theorem Reaches.trans {s t u : State} (h : Reaches s t) (h' : Reaches t u) : Reaches s u := by
  obtain ⟨k, hk⟩ := h
  obtain ⟨m, hm⟩ := h'
  exact ⟨k + m, (run_add hk m).trans hm⟩

/-! Several controller operations in a row. -/

/-- The environment after the operations, in order. -/
def Env.performAll (e : Env) (ops : List FcOp) : Env := ops.foldl Env.perform e

theorem Env.performAll_append (e : Env) (ops ops' : List FcOp) :
    e.performAll (ops ++ ops') = (e.performAll ops).performAll ops' := List.foldl_append ..

/-- Every operation is recorded, and the controller's answer and the turns to come stand. -/
theorem Env.performAll_record (e : Env) (ops : List FcOp) :
    (e.performAll ops).trace = e.trace ++ ops.map Event.fc ∧ (e.performAll ops).fcBusy = e.fcBusy ∧
      (e.performAll ops).turns = e.turns := by
  induction ops generalizing e with
  | nil => simp [performAll]
  | cons op ops ih =>
    obtain ⟨htrace, hbusy, hturns⟩ := ih (e.perform op)
    exact ⟨by rw [performAll, List.foldl_cons, ← performAll, htrace]; simp, hbusy.trans (e.perform_fcBusy op),
      hturns.trans (e.perform_turns op)⟩

/-! One page. -/

/-- A WRITEFLASH runs, the controller is idle, and only CORE moves. -/
def State.Sequencing (s : State) : Prop := s.top = .flash ∧ s.env.fcBusy = false ∧ s.env.turns = []

/-- The state in which the operations are made and the sequencer stands at phase `p`, word `w`. -/
def State.afterOps (s : State) (p : WfPhase) (w : BitVec 8) (ops : List FcOp) : State :=
  { s with wfPhase := p, wfW := w, env := s.env.performAll ops }

theorem State.afterOps_nil {s : State} {p : WfPhase} (h : s.wfPhase = p) : s.afterOps p s.wfW [] = s := by
  subst h
  rfl

theorem State.Sequencing.afterOps {s : State} (h : s.Sequencing) (p : WfPhase) (w : BitVec 8) (ops : List FcOp) :
    (s.afterOps p w ops).Sequencing := by
  obtain ⟨htop, hbusy, hturns⟩ := h
  obtain ⟨-, hb, ht⟩ := s.env.performAll_record ops
  exact ⟨htop, hb.trans hbusy, ht.trans hturns⟩

/-- A step that makes one operation adds it to those made. -/
theorem State.Sequencing.reaches_op {s : State} (h : s.Sequencing) {p p' : WfPhase} {w w' : BitVec 8}
    {ops : List FcOp} (op : FcOp)
    (hstep : coreStep (s.afterOps p w ops) =
      .next { s.afterOps p w ops with wfPhase := p', wfW := w', env := (s.afterOps p w ops).env.perform op }) :
    Reaches (s.afterOps p w ops) (s.afterOps p' w' (ops ++ [op])) := by
  refine .of_step ((step_of_no_turns (h.afterOps p w ops).2.2).trans (hstep.trans ?_))
  simp only [State.afterOps, Env.performAll_append]
  rfl

/-- An erase makes its five operations (R143). -/
theorem reaches_erase {s : State} (h : s.Sequencing) (hp : s.wfPhase = .eWait1) :
    Reaches s (s.afterOps .pWait1 s.wfW (eraseOps s.wfS)) := by
  have start (p : WfPhase) (hp : WfPhase.InErase p) (ops : List FcOp) :
      coreStep (s.afterOps p s.wfW ops) = exec (.erase s.wfS) (s.afterOps p s.wfW ops) := coreStep_erase h.1 hp
  have idle (p : WfPhase) (ops : List FcOp) := (h.afterOps p s.wfW ops).2.1
  have wait1 := (start .eWait1 (.inl rfl) []).trans (exec_erase_eWait1 s.wfS h.1 rfl)
  have key1 (ops : List FcOp) := (start .eKey1 (.inr (.inl rfl)) ops).trans (exec_erase_eKey1 s.wfS h.1 rfl)
  have key2 (ops : List FcOp) := (start .eKey2 (.inr (.inr (.inl rfl))) ops).trans (exec_erase_eKey2 s.wfS h.1 rfl)
  have cfg (ops : List FcOp) := (start .eCfg (.inr (.inr (.inr (.inl rfl)))) ops).trans (exec_erase_eCfg s.wfS h.1 rfl)
  have wait2 (ops : List FcOp) :=
    (start .eWait2 (.inr (.inr (.inr (.inr rfl)))) ops).trans (exec_erase_eWait2 s.wfS h.1 rfl)
  simp only [idle] at wait1 wait2
  have reach := (h.reaches_op _ wait1).trans <| (h.reaches_op _ (key1 _)).trans <| (h.reaches_op _ (key2 _)).trans <|
    (h.reaches_op _ (cfg _)).trans <| h.reaches_op _ (wait2 _)
  rwa [State.afterOps_nil hp] at reach

/-- The four operations before the words of a page. -/
def unlockOps : List FcOp := [.isBusy false, .key1, .key2, .configure programCfg]

/-- A program unlocks and configures the controller (R144). -/
theorem reaches_unlock {s : State} (h : s.Sequencing) (hp : s.wfPhase = .pWait1) :
    Reaches s (s.afterOps .pWord 0 unlockOps) := by
  have start (p : WfPhase)
      (hp : p = .pWait1 ∨ p = .pKey1 ∨ p = .pKey2 ∨ p = .pCfg ∨ p = .pWord ∨ p = .pWaitW) (ops : List FcOp) :
      coreStep (s.afterOps p s.wfW ops) = exec (.program s.wfAddr s.wfI) (s.afterOps p s.wfW ops) :=
    coreStep_program h.1 hp
  have idle (p : WfPhase) (ops : List FcOp) := (h.afterOps p s.wfW ops).2.1
  have wait1 := (start .pWait1 (by simp) []).trans (exec_program_pWait1 s.wfAddr s.wfI h.1 rfl)
  have key1 (ops : List FcOp) := (start .pKey1 (by simp) ops).trans (exec_program_pKey1 s.wfAddr s.wfI h.1 rfl)
  have key2 (ops : List FcOp) := (start .pKey2 (by simp) ops).trans (exec_program_pKey2 s.wfAddr s.wfI h.1 rfl)
  have cfg (ops : List FcOp) := (start .pCfg (by simp) ops).trans (exec_program_pCfg s.wfAddr s.wfI h.1 rfl)
  simp only [idle] at wait1
  have reach := (h.reaches_op _ wait1).trans <| (h.reaches_op _ (key1 _)).trans <| (h.reaches_op _ (key2 _)).trans <|
    h.reaches_op _ (cfg _)
  rwa [State.afterOps_nil hp] at reach

/-- Word `w` of staging page `i`, 0 outside the store. -/
def State.staged (s : State) (i w : Nat) : Word := (s.stageWord i w).getD 0

/-- The operations of one word. -/
def wordOps (addr : Word) (word : Nat → Word) (w : Nat) : List FcOp :=
  [.writeWord (addr + BitVec.ofNat 32 (4 * w)) (word w), .isBusy false]

theorem programOps_eq (addr : Word) (word : Nat → Word) :
    programOps addr word = unlockOps ++ (List.range 256).flatMap (wordOps addr word) := rfl

/-- A word is written (R144). -/
theorem reaches_writeWord {s : State} (h : s.Sequencing) (hi : s.wfI.toNat < nBufPages) (w : BitVec 8)
    (ops : List FcOp) :
    Reaches (s.afterOps .pWord w ops)
      (s.afterOps .pWaitW w
        (ops ++ [.writeWord (s.wfAddr + BitVec.ofNat 32 (4 * w.toNat)) (s.staged s.wfI.toNat w.toNat)])) := by
  have hv : s.stageWord s.wfI.toNat w.toNat = some (s.staged s.wfI.toNat w.toNat) := by
    rw [State.staged, stageWord_inside s hi w.isLt]
    rfl
  have hstep := (coreStep_program (h.afterOps .pWord w ops).1 (by simp [State.afterOps])).trans
    (exec_program_pWord s.wfAddr (s := s.afterOps .pWord w ops) (page := s.wfI) h.1 rfl hv)
  exact h.reaches_op _ hstep

/-- After the wait that follows a word that is not the last, the next word's turn comes. -/
theorem reaches_nextWord {s : State} (h : s.Sequencing) {w : BitVec 8} (hw : w ≠ 255) (ops : List FcOp) :
    Reaches (s.afterOps .pWaitW w ops) (s.afterOps .pWord (w + 1) (ops ++ [.isBusy false])) := by
  have hstep := (coreStep_program (h.afterOps .pWaitW w ops).1 (by simp [State.afterOps])).trans
    (exec_program_pWaitW s.wfAddr s.wfI h.1 rfl)
  have hw' : (s.afterOps .pWaitW w ops).wfW ≠ 255 := hw
  simp only [(h.afterOps .pWaitW w ops).2.1, hw', Bool.false_eq_true, if_false, or_self, and_false] at hstep
  exact h.reaches_op _ hstep

/-- The words of a page are written one after another. -/
theorem reaches_words {s : State} (h : s.Sequencing) (hi : s.wfI.toNat < nBufPages) (ops : List FcOp) {w : Nat}
    (hw : w < 256) :
    Reaches (s.afterOps .pWord 0 ops)
      (s.afterOps .pWord (BitVec.ofNat 8 w)
        (ops ++ (List.range w).flatMap (wordOps s.wfAddr (s.staged s.wfI.toNat)))) := by
  induction w with
  | zero => exact (List.append_nil ops).symm ▸ .refl _
  | succ w ih =>
    have hlast : BitVec.ofNat 8 w ≠ 255 := fun heq => by
      have := congrArg BitVec.toNat heq
      rw [BitVec.toNat_ofNat, Nat.mod_eq_of_lt (by omega)] at this
      exact absurd this (show w ≠ 255 by omega)
    have hreach := (ih (by omega)).trans ((reaches_writeWord h hi _ _).trans (reaches_nextWord h hlast _))
    have hnat : (BitVec.ofNat 8 w).toNat = w := by
      rw [BitVec.toNat_ofNat]
      exact Nat.mod_eq_of_lt (by omega)
    have hsucc : BitVec.ofNat 8 w + 1 = BitVec.ofNat 8 (w + 1) := (BitVec.ofNat_add w 1).symm
    rw [hnat, hsucc] at hreach
    simpa [List.range_succ, wordOps] using hreach

/-- After the wait that follows the last word, the page is done. -/
theorem reaches_pageEnd {s : State} (h : s.Sequencing) (ops : List FcOp) :
    Reaches (s.afterOps .pWaitW 255 ops)
      { s with
        wfPhase := .head, wfW := 255, wfI := s.wfI + 1, env := s.env.performAll (ops ++ [.isBusy false]) } := by
  have hstep := (coreStep_program (h.afterOps .pWaitW 255 ops).1 (by simp [State.afterOps])).trans
    (exec_program_pWaitW s.wfAddr s.wfI h.1 rfl)
  have hw : (s.afterOps .pWaitW 255 ops).wfW = 255 := rfl
  simp only [(h.afterOps .pWaitW 255 ops).2.1, hw, Bool.false_eq_true, if_false, if_true, or_true, and_self] at hstep
  refine .of_step ((step_of_no_turns (h.afterOps .pWaitW 255 ops).2.2).trans (hstep.trans ?_))
  simp only [State.afterOps, Env.performAll_append]
  rfl

/-- A program makes the operations of its page and goes on to the next one (R144). -/
theorem reaches_program {s : State} {word : Nat → Word} (h : s.Sequencing) (hp : s.wfPhase = .pWait1)
    (hi : s.wfI.toNat < nBufPages) (hword : s.staged s.wfI.toNat = word) :
    Reaches s
      { s with wfPhase := .head, wfW := 255, wfI := s.wfI + 1, env := s.env.performAll (programOps s.wfAddr word) } := by
  subst hword
  have hlast := reaches_writeWord h hi 255
    (unlockOps ++ (List.range 255).flatMap (wordOps s.wfAddr (s.staged s.wfI.toNat)))
  have hreach := (reaches_unlock h hp).trans ((reaches_words h hi unlockOps (w := 255) (by decide)).trans
    (hlast.trans (reaches_pageEnd h _)))
  have hops : programOps s.wfAddr (s.staged s.wfI.toNat) =
      unlockOps ++ (List.range 255).flatMap (wordOps s.wfAddr (s.staged s.wfI.toNat)) ++
        [.writeWord (s.wfAddr + BitVec.ofNat 32 (4 * (255 : BitVec 8).toNat))
          (s.staged s.wfI.toNat (255 : BitVec 8).toNat)] ++
        [.isBusy false] := by
    rw [programOps_eq, List.range_succ, List.flatMap_append, List.append_assoc, List.append_assoc]
    rfl
  rwa [hops]

/-- A page of the loop makes exactly its operations (R148). -/
theorem reaches_page {s : State} (h : s.Sequencing) (hp : s.wfPhase = .head) (hn : s.wfI.toNat < s.wfN.toNat)
    (hi : s.wfI.toNat < nBufPages) :
    ∃ t, Reaches s t ∧
      t = { s with
        wfI := s.wfI + 1, wfAddr := t.wfAddr, wfS := t.wfS, wfW := t.wfW
        env := s.env.performAll
          (pageOps (flashPageAddr (s.wfFpage.toNat + s.wfI.toNat)) (s.staged s.wfI.toNat)) } := by
  have hstep := (step_of_no_turns h.2.2).trans (coreStep_page h.1 hp hn hi)
  generalize hword : s.staged s.wfI.toNat = word
  generalize flashPageAddr (s.wfFpage.toNat + s.wfI.toNat) = addr at hstep ⊢
  rcases beginPage_cases s addr with ⟨i, hsec, hb⟩ | ⟨hsec, hb⟩ <;> rw [hb] at hstep
  · have hseq : State.Sequencing { s with wfAddr := addr, wfS := BitVec.ofNat 4 i, wfPhase := .eWait1 } := h
    have hprog := reaches_program (hseq.afterOps .pWait1 s.wfW (eraseOps (BitVec.ofNat 4 i))) rfl hi hword
    rw [pageOps, hsec, Env.performAll_append]
    exact ⟨_, (Reaches.of_step hstep).trans ((reaches_erase hseq rfl).trans hprog), hp ▸ rfl⟩
  · have hseq : State.Sequencing { s with wfAddr := addr, wfPhase := .pWait1 } := h
    rw [pageOps, hsec, List.nil_append]
    exact ⟨_, (Reaches.of_step hstep).trans (reaches_program hseq rfl hi hword), hp ▸ rfl⟩

theorem writeFlashOps_succ (f j : Nat) (word : Nat → Nat → Word) :
    writeFlashOps f (j + 1) word = writeFlashOps f j word ++ pageOps (flashPageAddr (f + j)) (word j) := by
  simp [writeFlashOps, List.range_succ]

/-- The first pages of the loop make exactly their operations. -/
theorem reaches_pages {s : State} (h : s.Sequencing) (hp : s.wfPhase = .head) (h0 : s.wfI = 0) {j : Nat}
    (hj : j ≤ s.wfN.toNat) (hten : j ≤ 10) :
    ∃ t, Reaches s t ∧
      t = { s with
        wfI := BitVec.ofNat 4 j, wfAddr := t.wfAddr, wfS := t.wfS, wfW := t.wfW
        env := s.env.performAll (writeFlashOps s.wfFpage.toNat j s.staged) } := by
  induction j with
  | zero =>
    have hidx : BitVec.ofNat 4 0 = s.wfI := h0.symm
    exact ⟨s, .refl s, by rw [hidx]; rfl⟩
  | succ j ih =>
    obtain ⟨u, hu, hframe⟩ := ih (by omega) (by omega)
    have hidx : u.wfI.toNat = j := by
      rw [hframe]
      exact Nat.mod_eq_of_lt (show j < 16 by omega)
    have hseq : u.Sequencing := by
      obtain ⟨-, hb, ht⟩ := s.env.performAll_record (writeFlashOps s.wfFpage.toNat j s.staged)
      rw [hframe]
      exact ⟨h.1, hb.trans h.2.1, ht.trans h.2.2⟩
    obtain ⟨t, ht, hframe'⟩ := reaches_page hseq (by rw [hframe]; exact hp) (by rw [hidx, hframe]; exact hj)
      (by rw [hidx]; exact hten)
    refine ⟨t, hu.trans ht, ?_⟩
    have hnext : u.wfI + 1 = BitVec.ofNat 4 (j + 1) := by rw [hframe]; exact (BitVec.ofNat_add j 1).symm
    have hstaged : u.staged = s.staged := by rw [hframe]; rfl
    rw [hframe', hidx, hnext, hstaged, writeFlashOps_succ, Env.performAll_append]
    rw [hframe]

/-- A dispatched WRITEFLASH stands at the top of its page loop. -/
def State.started (s : State) (b f n : Half) : State :=
  { s with top := .flash, wfBpage := b, wfFpage := f, wfN := n, wfI := 0, wfPhase := .head }

theorem reaches_started {s : State} {lead : Byte} {len : Nat} {b f n : Half} {e : List Byte} (hd : s.top = .dispatch)
    (hi : decodePacket s.pkt = .writeflash lead len b f n e) (ht : s.env.turns = []) : Reaches s (s.started b f n) := by
  refine .of_step ((step_of_no_turns ht).trans ?_)
  rw [coreStep_of_not_poll (by simp [hd]) (fetch_dispatch hd), hi]
  exact exec_writeflash_dispatch lead len b f n e hd

/-- A WRITEFLASH of at most ten pages makes the operations of its pages and then builds its reply. -/
theorem reaches_reply {s : State} {lead : Byte} {len : Nat} {b f n : Half} {e : List Byte} (hd : s.top = .dispatch)
    (hi : decodePacket s.pkt = .writeflash lead len b f n e) (hn : n.toNat ≤ 10) (hb : s.env.fcBusy = false)
    (ht : s.env.turns = []) :
    ∃ t, Reaches s t ∧ t.top = .send ∧ t.replyRequired = true ∧ t.txIdx = 0 ∧
      t.pkt = Packet.statusReply s.pkt ∧ t.stage = s.stage ∧ t.rxq = s.rxq ∧ t.fst = s.fst ∧
      t.env = s.env.performAll (writeFlashOps f.toNat n.toNat s.staged) := by
  have hseq : (s.started b f n).Sequencing := ⟨rfl, hb, ht⟩
  obtain ⟨u, hu, hframe⟩ := reaches_pages hseq rfl rfl (j := n.toNat) (le_refl _) hn
  have hdone : u.wfN.toNat ≤ u.wfI.toNat := by
    rw [hframe]
    exact (Nat.mod_eq_of_lt (show n.toNat < 16 by omega)).ge
  have hturns : u.env.turns = [] := by
    rw [hframe]
    exact (Env.performAll_record ..).2.2.trans ht
  have hend := coreStep_loop_end (s := u) (by rw [hframe]; rfl) (by rw [hframe]; rfl)
    (fun hlt => absurd hlt.1 (Nat.not_lt.2 hdone))
  rw [pageLoop_done hdone] at hend
  refine ⟨_, (reaches_started hd hi ht).trans (hu.trans (.of_step ((step_of_no_turns hturns).trans hend))), rfl, rfl, rfl,
    ?_⟩
  rw [hframe]
  exact ⟨rfl, rfl, rfl, rfl, rfl⟩

end Sys2Proof.Machine

namespace Sys2Proof

open Machine

/-- Settles O40: the record is that of the operations of the pages. -/
theorem writeflashOperationTrace : Obligations.WriteflashOperationTrace := by
  intro s lead len b f n e hd hi hn hb ht
  obtain ⟨t, ⟨k, hk⟩, htop, hreply, hidx, hpkt, hstage, hrxq, hfst, henv⟩ := reaches_reply hd hi hn hb ht
  have hbyte {i : Nat} (h : i < 32) := byte_statusReply s.pkt h
  refine ⟨k, t, hk, htop, hreply, hidx, by rw [hpkt]; rfl, ?_, ?_, hstage, hrxq, hfst, ?_⟩
  · rw [hpkt, hbyte (by decide)]
    rfl
  · rw [hpkt, hbyte (by decide)]
    rfl
  · rw [henv]
    exact (Env.performAll_record ..).1

/-- Settles O41: the loop index stands at 10 with pages left. -/
theorem elevenPagesProgramTenThenHalt : Obligations.ElevenPagesProgramTenThenHalt := by
  intro s lead len b f n e hd hi hn hb ht
  have hseq : (s.started b f n).Sequencing := ⟨rfl, hb, ht⟩
  obtain ⟨u, hu, hframe⟩ := reaches_pages hseq rfl rfl (j := 10) (Nat.le_of_lt hn) (le_refl _)
  have hten : u.wfI.toNat = 10 := by rw [hframe]; rfl
  have hmore : u.wfI.toNat < u.wfN.toNat := by
    rw [hten, hframe]
    exact hn
  obtain ⟨htrace, -, hturns⟩ :=
    s.env.performAll_record (writeFlashOps f.toNat 10 s.staged)
  have henv : u.env = s.env.performAll (writeFlashOps f.toNat 10 s.staged) := by rw [hframe]; rfl
  have hend := coreStep_loop_end (s := u) (by rw [hframe]; rfl) (by rw [hframe]; rfl)
    (fun hlt => absurd hlt.2 (by rw [hten]; decide))
  rw [pageLoop_halt hmore hten.ge] at hend
  obtain ⟨k, hk⟩ := (reaches_started hd hi ht).trans
    (hu.trans (.of_step ((step_of_no_turns (by rw [henv]; exact hturns.trans ht)).trans hend)))
  refine ⟨k, _, hk, rfl, by rw [hframe]; rfl, by rw [hframe]; rfl, ?_⟩
  rw [henv, htrace]
  rfl

end Sys2Proof

/-! What a WRITEFLASH leaves in the flash array (43_flash_sequencer.md R148, R151): each page is erased when its words are
written, because its sector was erased with it or before it, or because it was erased from the start. -/

namespace Sys2Proof.Machine

/-! A word that is copied from one memory to another. -/

/-- The bytes of a word made of four bytes are these bytes. -/
theorem wordBytes_le32 (a b c d : Byte) : wordBytes (le32 a b c d) = [a, b, c, d] := by
  have ha := a.isLt
  have hb := b.isLt
  have hc := c.isLt
  have hd := d.isLt
  have hbyte {v : Byte} {k : Nat} (h : (le32 a b c d).toNat / 2 ^ k % 2 ^ 8 = v.toNat) :
      (le32 a b c d).extractLsb' k 8 = v := by
    apply BitVec.eq_of_toNat_eq
    rwa [BitVec.extractLsb'_toNat, Nat.shiftRight_eq_div_pow]
  rw [le32_toNat] at hbyte
  rw [wordBytes, hbyte (v := a), hbyte (v := b), hbyte (v := c), hbyte (v := d)] <;> omega

/-- A copied word reads, byte for byte, as its source. -/
theorem read_writeWord_readWord (d d' : Byte) (m src : Memory) (a b x : Nat) :
    (m.writeWord d a (src.readWord d' b)).read d x =
      if a ≤ x ∧ x < a + 4 then src.read d' (b + (x - a)) else m.read d x := by
  by_cases hx : a ≤ x ∧ x < a + 4
  · obtain ⟨k, rfl⟩ := Nat.exists_eq_add_of_le hx.1
    have hk : k < 4 := by omega
    rw [if_pos hx, Memory.writeWord, Memory.readWord, wordBytes_le32, Memory.read_writeBytes]
    rcases k with _ | _ | _ | _ | k
    case succ.succ.succ.succ => omega
    all_goals simp
  · rw [if_neg hx]
    exact Memory.read_writeWord_outside _ _ (by omega)

/-! The words of a page. -/

/-- A word write that R151 (b) covers, and the wait after it, put the word into the array. -/
theorem performAll_wordOps {e : Env} {addr : Word} {word : Nat → Word} {w : Nat}
    (h : e.programs (addr + BitVec.ofNat 32 (4 * w)).toNat = true) :
    (e.performAll (wordOps addr word w)).flash =
        e.flash.writeWord flashDefault (addr + BitVec.ofNat 32 (4 * w)).toNat (word w) ∧
      (e.performAll (wordOps addr word w)).fcConfig = e.fcConfig := by
  have happly (tr : List Event) :
      ({ e with trace := tr } : Env).applyWrite (addr + BitVec.ofNat 32 (4 * w)).toNat (word w) =
        { e with
          trace := tr
          flash := e.flash.writeWord flashDefault (addr + BitVec.ofNat 32 (4 * w)).toNat (word w) } :=
    if_pos h
  have hcfg (tr : List Event) := congrArg Env.fcConfig (happly tr)
  exact ⟨congrArg Env.flash (happly _), hcfg _⟩

/-- The words of an erased part of the device, written one after another from a memory, leave that memory's bytes there
and every other byte as it was. -/
theorem performAll_words {e : Env} {addr : Word} {word : Nat → Word} {src : Memory} {d : Byte} {b n : Nat}
    (hcfg : e.fcConfig = some programCfg) (hlo : 0x08000000 ≤ addr.toNat) (hhi : addr.toNat + 4 * n ≤ 0x08100000)
    (herased : ∀ x, addr.toNat ≤ x → x < addr.toNat + 4 * n → e.flash.read flashDefault x = 0xFF)
    (hword : ∀ w < n, word w = src.readWord d (b + 4 * w)) :
    (e.performAll ((List.range n).flatMap (wordOps addr word))).fcConfig = some programCfg ∧
      ∀ x, (e.performAll ((List.range n).flatMap (wordOps addr word))).flash.read flashDefault x =
        if addr.toNat ≤ x ∧ x < addr.toNat + 4 * n then src.read d (b + (x - addr.toNat))
        else e.flash.read flashDefault x := by
  induction n with
  | zero => exact ⟨hcfg, fun x => (if_neg (by omega)).symm⟩
  | succ n ih =>
    obtain ⟨hcfg', hread⟩ := ih (by omega) (fun x hx hx' => herased x hx (by omega)) (fun w hw => hword w (by omega))
    rw [List.range_succ, List.flatMap_append, Env.performAll_append, List.flatMap_singleton]
    generalize e.performAll ((List.range n).flatMap (wordOps addr word)) = e' at hcfg' hread ⊢
    have haddr : (addr + BitVec.ofNat 32 (4 * n)).toNat = addr.toNat + 4 * n := by
      rw [BitVec.toNat_add, BitVec.toNat_ofNat]
      omega
    have hbyte (k : Nat) (hk : k < 4) : e'.flash.read flashDefault (addr.toNat + 4 * n + k) = 0xFF := by
      rw [hread, if_neg (by omega)]
      exact herased _ (by omega) (by omega)
    have herasedWord : e'.flash.readWord flashDefault (addr.toNat + 4 * n) = 0xFFFFFFFF := by
      rw [Memory.readWord, hbyte 1 (by decide), hbyte 2 (by decide), hbyte 3 (by decide),
        ← Nat.add_zero (addr.toNat + 4 * n), hbyte 0 (by decide)]
      decide
    have hprog : e'.programs (addr + BitVec.ofNat 32 (4 * n)).toNat = true := by
      rw [haddr]
      exact programs_iff.2 ⟨hcfg', by omega, by omega, herasedWord⟩
    obtain ⟨hflash, hkeep⟩ := performAll_wordOps (word := word) hprog
    refine ⟨hkeep.trans hcfg', fun x => ?_⟩
    rw [hflash, haddr, hword n (by omega), read_writeWord_readWord, hread]
    by_cases hnew : addr.toNat + 4 * n ≤ x ∧ x < addr.toNat + 4 * n + 4
    · rw [if_pos hnew, if_pos (by omega), show b + 4 * n + (x - (addr.toNat + 4 * n)) = b + (x - addr.toNat) by omega]
    · rw [if_neg hnew]
      exact if_congr (by omega) rfl rfl

/-- A program of an erased page inside the device copies the staged page to it and leaves every other byte (R144,
R151). -/
theorem performAll_programOps {e : Env} {p : Nat} {word : Nat → Word} {src : Memory} {d : Byte} {b : Nat} (hp : p < 1024)
    (herased : ∀ x, 0x08000000 + 1024 * p ≤ x → x < 0x08000000 + 1024 * p + 1024 → e.flash.read flashDefault x = 0xFF)
    (hword : ∀ w < 256, word w = src.readWord d (b + 4 * w)) (x : Nat) :
    (e.performAll (programOps (flashPageAddr p) word)).flash.read flashDefault x =
      if 0x08000000 + 1024 * p ≤ x ∧ x < 0x08000000 + 1024 * p + 1024 then src.read d (b + (x - (0x08000000 + 1024 * p)))
      else e.flash.read flashDefault x := by
  have haddr : (flashPageAddr p).toNat = 0x08000000 + 1024 * p := flashPageAddr_toNat (by omega)
  have hcfg : (e.performAll unlockOps).fcConfig = some programCfg := rfl
  have hflash : (e.performAll unlockOps).flash = e.flash := rfl
  rw [programOps_eq, Env.performAll_append]
  generalize e.performAll unlockOps = e' at hcfg hflash ⊢
  rw [← hflash, ← haddr] at herased ⊢
  exact (performAll_words (n := 256) hcfg (by omega) (by omega) herased hword).2 x

/-! The erase of a page's sector. -/

/-- The operations before the program of a page: an erase where the page starts a sector. -/
def openOps (p : Nat) : List FcOp :=
  match sectorIndex (flashPageAddr p) with
  | some i => eraseOps (BitVec.ofNat 4 i)
  | none => []

theorem pageOps_eq (p : Nat) (word : Nat → Word) :
    pageOps (flashPageAddr p) word = openOps p ++ programOps (flashPageAddr p) word := rfl

/-- A sector starts with its page and ends with the device or where a later page starts one. -/
theorem sector_bounds {i p : Nat} (h : sectorPages[i]? = some p) :
    i < 12 ∧ sectorStart i = 0x08000000 + 1024 * p ∧
      (sectorEnd i = 0x08100000 ∨ ∃ q ∈ sectorPages, p < q ∧ sectorEnd i = 0x08000000 + 1024 * q) := by
  obtain ⟨hi, rfl⟩ := List.getElem?_eq_some_iff.1 h
  have hall : ∀ i : Fin 12, sectorStart i = 0x08000000 + 1024 * sectorPages[i] ∧
      (sectorEnd i = 0x08100000 ∨ ∃ q ∈ sectorPages, sectorPages[i] < q ∧ sectorEnd i = 0x08000000 + 1024 * q) := by
    decide
  exact ⟨hi, hall ⟨i, hi⟩⟩

/-- From flash page `p` up to `hi` every byte is erased or stands in a sector that starts at page `q` or later. -/
def Env.ErasedBelow (e : Env) (p q hi : Nat) : Prop :=
  ∀ x, 0x08000000 + 1024 * p ≤ x → x < 0x08000000 + 1024 * hi →
    (∃ r ∈ sectorPages, q ≤ r ∧ 0x08000000 + 1024 * r ≤ x) ∨ e.flash.read flashDefault x = 0xFF

/-- Opening a page changes no byte before it, and leaves only later sectors to be erased. -/
theorem performAll_openOps {e : Env} {p hi : Nat} (hp : p < 1024) (hhi : hi ≤ 1024) (h : e.ErasedBelow p p hi) :
    (∀ x < 0x08000000 + 1024 * p, (e.performAll (openOps p)).flash.read flashDefault x = e.flash.read flashDefault x) ∧
      (e.performAll (openOps p)).ErasedBelow p (p + 1) hi := by
  cases hsec : sectorIndex (flashPageAddr p) with
  | none =>
    rw [openOps, hsec]
    refine ⟨fun _ _ => rfl, fun x hx hx' => (h x hx hx').imp_left ?_⟩
    rintro ⟨r, hr, hpr, hrx⟩
    have hne : p ≠ r := by
      rintro rfl
      obtain ⟨i, hi⟩ := List.mem_iff_getElem?.1 hr
      rw [(sectorIndex_flashPageAddr_iff (by omega)).2 hi] at hsec
      cases hsec
    exact ⟨r, hr, by omega, hrx⟩
  | some i =>
    obtain ⟨hi12, hstart, hend⟩ := sector_bounds ((sectorIndex_flashPageAddr_iff (by omega)).1 hsec)
    have hnat : (BitVec.ofNat 4 i).toNat = i := by
      rw [BitVec.toNat_ofNat]
      omega
    have hread (x : Nat) : (e.performAll (eraseOps (BitVec.ofNat 4 i))).flash.read flashDefault x =
        if 0x08000000 + 1024 * p ≤ x ∧ x < sectorEnd i then 0xFF else e.flash.read flashDefault x := by
      have hclear (tr : List Event) := read_applyConfig_eraseCfg { e with trace := tr } (BitVec.ofNat 4 i) x
      simp only [hnat, hi12, true_and, hstart] at hclear
      exact hclear _
    rw [openOps, hsec]
    refine ⟨fun x hx => (hread x).trans (if_neg (by omega)), fun x hx hx' => ?_⟩
    by_cases hin : x < sectorEnd i
    · exact .inr ((hread x).trans (if_pos ⟨hx, hin⟩))
    · obtain hdev | ⟨q, hq, hpq, hq'⟩ := hend
      · omega
      · exact .inl ⟨q, hq, hpq, by omega⟩

/-! The pages. -/

/-- A page of the loop leaves the staged bytes in its flash page, leaves every earlier byte, and hands on to the next
page. -/
theorem performAll_pageOps {e : Env} {p hi : Nat} {word : Nat → Word} {src : Memory} {d : Byte} {b : Nat} (hp : p < hi)
    (hhi : hi ≤ 1024) (h : e.ErasedBelow p p hi) (hword : ∀ w < 256, word w = src.readWord d (b + 4 * w)) :
    (e.performAll (pageOps (flashPageAddr p) word)).ErasedBelow (p + 1) (p + 1) hi ∧
      (∀ x < 0x08000000 + 1024 * p,
        (e.performAll (pageOps (flashPageAddr p) word)).flash.read flashDefault x = e.flash.read flashDefault x) ∧
      ∀ a < 1024, (e.performAll (pageOps (flashPageAddr p) word)).flash.read flashDefault (0x08000000 + 1024 * p + a) =
        src.read d (b + a) := by
  obtain ⟨hkeep, hopen⟩ := performAll_openOps (by omega) hhi h
  have herased : ∀ x, 0x08000000 + 1024 * p ≤ x → x < 0x08000000 + 1024 * p + 1024 →
      (e.performAll (openOps p)).flash.read flashDefault x = 0xFF := fun x hx hx' =>
    (hopen x hx (by omega)).resolve_left fun ⟨r, _, hr, hrx⟩ => by omega
  have hread := performAll_programOps (by omega) herased hword
  rw [pageOps_eq, Env.performAll_append]
  refine ⟨fun x hx hx' => ?_, fun x hx => ?_, fun a ha => ?_⟩
  · rw [hread, if_neg (by omega)]
    exact hopen x (by omega) hx'
  · rw [hread, if_neg (by omega), hkeep x hx]
  · rw [hread, if_pos (by omega), Nat.add_sub_cancel_left]

theorem staged_inside (s : State) {i w : Nat} (hi : i < nBufPages) (hw : w < 256) :
    s.staged i w = s.stage.readWord stageDefault (1024 * i + 4 * w) := by
  rw [State.staged, stageWord_inside s hi hw]
  rfl

/-- The first pages of a WRITEFLASH leave their staged bytes in the array. -/
theorem performAll_writeFlashOps {s : State} {f hi j : Nat} (hj : f + j ≤ hi) (hten : j ≤ 10) (hhi : hi ≤ 1024)
    (h : s.env.ErasedBelow f f hi) :
    (s.env.performAll (writeFlashOps f j s.staged)).ErasedBelow (f + j) (f + j) hi ∧
      ∀ i < j, ∀ a < 1024,
        (s.env.performAll (writeFlashOps f j s.staged)).flash.read flashDefault (0x08000000 + 1024 * (f + i) + a) =
          s.stage.read stageDefault (1024 * i + a) := by
  induction j with
  | zero => exact ⟨h, nofun⟩
  | succ j ih =>
    obtain ⟨hbelow, hdone⟩ := ih (by omega) (by omega)
    obtain ⟨hbelow', hkeep, hpage⟩ := performAll_pageOps (by omega) hhi hbelow
      (fun w hw => staged_inside s (i := j) (show j < 10 by omega) hw)
    rw [writeFlashOps_succ, Env.performAll_append]
    refine ⟨hbelow', fun i hi' a ha => ?_⟩
    rcases Nat.lt_succ_iff_lt_or_eq.1 hi' with hlt | rfl
    · rw [hkeep _ (by omega)]
      exact hdone i hlt a ha
    · exact hpage a ha

end Sys2Proof.Machine

namespace Sys2Proof

open Machine

/-- Settles O46: the run makes the operations of the pages (`reaches_reply`), and these copy the staged pages. -/
theorem writeflashCommitsTheStagedPages : Obligations.WriteflashCommitsTheStagedPages := by
  intro s lead len b f n e hd hi hn hdev hb ht hstart
  obtain ⟨t, ⟨k, hk⟩, htop, -, -, -, -, -, -, henv⟩ := reaches_reply hd hi hn hb ht
  have hbelow : s.env.ErasedBelow f.toNat f.toNat (f.toNat + n.toNat) := fun x hx hx' =>
    hstart.imp (fun hsec => by
      obtain ⟨i, hi⟩ := Option.ne_none_iff_exists'.1 hsec
      exact ⟨f.toNat, List.mem_of_getElem? ((sectorIndex_flashPageAddr_iff (by omega)).1 hi), le_refl _, hx⟩)
      (fun herased => herased x hx hx')
  obtain ⟨-, hread⟩ := performAll_writeFlashOps (le_refl _) hn hdev hbelow
  refine ⟨k, t, hk, htop, fun i a hi' ha => ?_⟩
  rw [henv, hread i hi' a ha]
  exact (stageByte_eq_some.2 ⟨⟨show i < 10 by omega, ha⟩, rfl⟩).symm

end Sys2Proof
